-- ==== Sys2Proof/Word.lean ====
section
/-! DEFINITION. The word types of the block: the 32-bit data word (R6, R12), the 34-bit command word (R61) and the
34-bit response word (R66). Bit 0 is the least significant bit (R12), which is `BitVec`'s own numbering, and the
arithmetic of R13 is `BitVec`'s: `+` and `*` mod 2^32, `^^^`, `&&&`, `~~~`, the logical `>>>` and the truncating `<<<`. -/

namespace Sys2Proof

/-- A data word: an unsigned 32-bit value (R6: W = 32; R12). -/
abbrev Word := BitVec 32

/-- A command word, `OP` in bits 33:32 and `DATA` in bits 31:0 (R61). -/
abbrev CommandWord := BitVec 34

/-- A response word, `ST` in bits 33:32 and `DATA` in bits 31:0 (R66). -/
abbrev ResponseWord := BitVec 34

/-- A position in the state array `MT[0..623]` (R22). Its addition is addition mod 624, so `i + 1` and `i + 397` are the
spec's `(i + 1) mod 624` and `(i + 397) mod 624`, and no index a rule forms can leave the array (R41). -/
abbrev MtIndex := Fin 624

/-- The contents of the state array: exactly 624 words (R22). -/
abbrev MtArray := Vector Word 624

/-- The width of the index cursor `IDX` (R24: an unsigned register of 10 bits). -/
abbrev Cursor := BitVec 10

end Sys2Proof
end

