-- ==== Sys2Proof/Syntax.lean ====
section
/-! DEFINITION. The commands of the block, one constructor per row of spec/opcode_table.json (R62, R64). -/

namespace Sys2Proof

/-- A decoded command word. Every row keeps all 32 bits of `DATA`, also where the block ignores them (R63), so that no
bit of a command word is lost in decoding. -/
inductive Instr where
  /-- `NEXT`, OP = 0b00: next-output extraction; `DATA` is ignored (R63, R121). -/
  | next (data : Word)
  /-- `SEED`, OP = 0b01: construct with the explicit seed `DATA` (R63, R81). -/
  | seed (seed : Word)
  /-- `SEED.DEFAULT`, OP = 0b10: construct with the seed omitted; `DATA` is ignored (R63, R84). -/
  | seedDefault (data : Word)
  /-- The reserved OP = 0b11, with any `DATA`: illegal, answered `E_ILLEGAL` (R64). -/
  | reserved (data : Word)
  deriving DecidableEq, Repr

/-- The value of the command's `OP` field (R62). -/
def Instr.opcode : Instr → BitVec 2
  | .next _ => 0b00
  | .seed _ => 0b01
  | .seedDefault _ => 0b10
  | .reserved _ => 0b11

/-- The value of the command's `DATA` field (R61). -/
def Instr.data : Instr → Word
  | .next d => d
  | .seed d => d
  | .seedDefault d => d
  | .reserved d => d

end Sys2Proof
end

