-- ==== Sys2Proof/Decode.lean ====
section
/-! DEFINITION. The decoder of R69, total on the 34-bit command words (R64, R65), the refusal by name of anything that is
not a command word, and the encoder written from the same table (R61, R62). -/

namespace Sys2Proof

/-- `w[33:32]`, the `OP` field (R61). -/
def opField (w : CommandWord) : BitVec 2 := w.extractLsb' 32 2

/-- `w[31:0]`, the `DATA` field (R61). -/
def dataField (w : CommandWord) : Word := w.extractLsb' 0 32

/-- The whole decode of one command word (R69). `OP` alone selects the command (R62). -/
def decode (w : CommandWord) : Instr :=
  match opField w with
  | 0b00#2 => .next (dataField w)
  | 0b01#2 => .seed (dataField w)
  | 0b10#2 => .seedDefault (dataField w)
  | 0b11#2 => .reserved (dataField w)

/-- Why a bit pattern is no command. -/
inductive DecodeReject where
  /-- It has a bit at or above bit 34, and every command is exactly 34 bits (R65). Raised by `decodeBits` only: no word
  that the command port can carry is rejected (R69), so this is safe. -/
  | widerThanCommandWord
  deriving DecidableEq, Repr

/-- The 34-bit command word whose bits are those of `v`, if `v` has none above bit 33 (R65). -/
def commandWordOf (v : Nat) : Except DecodeReject CommandWord :=
  if v < 2 ^ 34 then .ok (BitVec.ofNat 34 v) else .error .widerThanCommandWord

/-- Decoding of a number read as bits, bit 0 its least significant (R12). -/
def decodeBits (v : Nat) : Except DecodeReject Instr :=
  match commandWordOf v with
  | .ok w => .ok (decode w)
  | .error e => .error e

/-- The command word placed from a row of the opcode table: the low `nbits` bits of `w`, every bit above them 0. -/
def tableWord (nbits w : Nat) : Except DecodeReject CommandWord := commandWordOf (w % 2 ^ nbits)

/-- The instruction the decoder reads from bits numbered as spec/opcode_table.json numbers them; `none` where the bits
are no 34-bit word. A command word crosses the port whole, so there is no byte order to apply (R43). -/
def decodeTableWord (nbits w : Nat) : Option Instr :=
  match tableWord nbits w with
  | .ok c => some (decode c)
  | .error _ => none

/-- The command word with the given `OP` and `DATA` (R61: `{OP, DATA}`). -/
def commandWord (op : BitVec 2) (data : Word) : CommandWord := op ++ data

/-- The command word of an instruction (R61 to R63). -/
def encode : Instr → CommandWord
  | .next d => commandWord 0b00 d
  | .seed d => commandWord 0b01 d
  | .seedDefault d => commandWord 0b10 d
  | .reserved d => commandWord 0b11 d

end Sys2Proof
end

