-- ==== Sys2Proof/Config.lean ====
section
/-! DEFINITION. What is fixed when the hardware is built: the hardwired constants of R6 to R9 (R28: not registers, not
configurable), the named parameter `SEED_FILL_LAST` (R10) and the named latencies, left open (R11). -/

namespace Sys2Proof.Config

/-- N, the number of words of the state array (R6). -/
def stateLength : Nat := 624

/-- M, the twist offset (R6), as a position mod 624. -/
def twistOffset : MtIndex := 397

/-- A, the twist constant (R7). -/
def twistA : Word := 0x9908B0DF

/-- LOWER_MASK = 2^31 - 1 (R7). -/
def lowerMask : Word := 0x7FFFFFFF

/-- UPPER_MASK = ~LOWER_MASK (R7). -/
def upperMask : Word := 0x80000000

/-- U, the first tempering shift, to the right (R8). -/
def temperU : Nat := 11

/-- D, the mask of the first tempering step (R8). -/
def temperD : Word := 0xFFFFFFFF

/-- S, the second tempering shift, to the left (R8). -/
def temperS : Nat := 7

/-- B, the mask of the second tempering step (R8). -/
def temperB : Word := 0x9D2C5680

/-- T, the third tempering shift, to the left (R8). -/
def temperT : Nat := 15

/-- C, the mask of the third tempering step (R8). -/
def temperC : Word := 0xEFC60000

/-- L, the fourth tempering shift, to the right (R8). -/
def temperL : Nat := 18

/-- F, the multiplier of the seeding recurrence (R9). -/
def seedMultiplier : Word := 1812433253

/-- The shift of the seeding recurrence (R80: `p >> 30`). -/
def seedShift : Nat := 30

/-- DEFAULT_SEED, the seed of SEED.DEFAULT (R9). -/
def defaultSeed : Word := 5489

/-- SEED_FILL_LAST (R10, C1, D9): this hardware takes `true`, the canonical fill. Every function that depends on it takes
it as an argument, so that claims can be made about both fills. -/
def seedFillLast : Bool := true

/-- SEED_LATENCY less one cycle: R11 leaves the latency OPEN but positive, so it has no body. Nothing reads it (R185). -/
opaque seedLatencyPred : Nat

/-- TWIST_LATENCY less one cycle (R11, OPEN). Nothing reads it (R185). -/
opaque twistLatencyPred : Nat

/-- NEXT_LATENCY less one cycle (R11, OPEN). Nothing reads it (R185). -/
opaque nextLatencyPred : Nat

/-- SEED_LATENCY: a positive number of clock cycles, otherwise open (R11). -/
def seedLatency : Nat := seedLatencyPred + 1

/-- TWIST_LATENCY: a positive number of clock cycles, otherwise open (R11). -/
def twistLatency : Nat := twistLatencyPred + 1

/-- NEXT_LATENCY: a positive number of clock cycles, otherwise open (R11). -/
def nextLatency : Nat := nextLatencyPred + 1

end Sys2Proof.Config
end

