-- ==== Sys2Proof/Machine/State.lean ====
section
/-! DEFINITION. The state of the block (R20 to R30), of its two ports (R60, R66), and the ways a step can stop. -/

namespace Sys2Proof.Machine

/-- The response status codes the block produces (R66). The code `0b11` is reserved and never produced, so it has no
constructor (U8). -/
inductive Status where
  /-- `OK`, 0b00: command done. -/
  | ok
  /-- `E_UNSEEDED`, 0b01: NEXT refused, not seeded since reset (R143). -/
  | eUnseeded
  /-- `E_ILLEGAL`, 0b10: reserved opcode (R142). -/
  | eIllegal
  deriving DecidableEq, Repr

/-- One response: a status and a 32-bit result (R66). -/
structure Response where
  status : Status
  data : Word
  deriving DecidableEq, Repr

/-- A command word at the command port, with the requester that the platform's arbitration took it from. The block itself
never looks at the requester (R46, R160). -/
structure Command where
  requester : Nat
  word : CommandWord
  deriving DecidableEq, Repr

/-- Why the block starts again at reset. -/
inductive ResetCause where
  /-- The reset input is asserted (R170). -/
  | resetInput
  /-- Power was lost, and the block starts again at reset (R162). -/
  | powerLoss
  deriving DecidableEq, Repr

/-- What the outside does to the block next. -/
inductive HostInput where
  /-- A command word is presented and accepted (R60). -/
  | command (c : Command)
  /-- Reset, for the given cause. `inFlight` is the command the block had accepted and not yet answered, if any: it is
  abandoned with no response (R170, R173). -/
  | reset (cause : ResetCause) (inFlight : Option Command)
  deriving DecidableEq, Repr

/-- The reasons a step stops. -/
inductive Fault where
  /-- NEXT, with `SEEDED = 1`, meets a state array that holds no value (U3: a fault on any read). Raised by `execNext`.
  No run reaches it (R23). Safe: the model stops and gives the array no value. -/
  | mtHoldsNoValue
  deriving DecidableEq, Repr

/-- The reasons an instruction has no meaning. -/
inductive Refusal where
  /-- An instruction the model has not reached, by its mnemonic. Raised by no arm: every row has its meaning. Safe. -/
  | notModelled (mnemonic : String)
  deriving DecidableEq, Repr

/-- The state. `mt`, `idx` and `seeded` are the whole architectural state of the block (R29). `inputs`, `accepted` and
`responses` belong to the two ports: what the outside will do, and the record of the transactions so far. -/
structure State where
  /-- `MT[0..623]` (R22); `none` when the words hold no value, as after reset (R23, R170). Commands are atomic (R45), so
  between commands either every word holds a value or none does. -/
  mt : Option MtArray
  /-- `IDX`, the index cursor (R24). -/
  idx : Cursor
  /-- `SEEDED` (R27). -/
  seeded : Bool
  /-- What the outside does next, oldest first (R46). -/
  inputs : List HostInput
  /-- The commands answered so far, oldest first (R46, R60). -/
  accepted : List Command
  /-- The responses emitted so far, oldest first: the i-th answers the i-th command of `accepted` (R46, R60, R66). -/
  responses : List Response
  deriving DecidableEq, Repr

/-- The state right after reset (R170, R171): the array holds no value, `IDX = 624`, `SEEDED = 0`, and nothing has
happened yet at the ports. -/
def State.reset : State where
  mt := none
  idx := 624
  seeded := false
  inputs := []
  accepted := []
  responses := []

end Sys2Proof.Machine
end

