-- ==== Sys2Proof/Machine/Ops.lean ====
section
/-! DEFINITION. The shared operations over the state (R14): reading and writing a word of the array, emitting the one
response of a command, the error path of R141 (the block's whole exception mechanism, R147), accepting a command at the
port, and reset. -/

namespace Sys2Proof.Machine

/-- `MT[i]`: one whole word (R42). -/
def readMt (m : MtArray) (i : MtIndex) : Word := m[i]

/-- `MT[i] <- v`: one whole word (R42). -/
def writeMt (m : MtArray) (i : MtIndex) (v : Word) : MtArray := m.set i v

/-- `respond(status, data)`: emit the one response of the current command (R66). Responses leave in order (R46). -/
def respond (status : Status) (data : Word) (s : State) : State :=
  { s with responses := s.responses ++ [{ status := status, data := data }] }

/-- `raise E_...()`: abandon the command with no change of `MT`, `IDX` or `SEEDED`, and answer the cause's status code
with `DATA = 0` (R14, R141). There is no trap entry and no return from one (R147). -/
def raiseError (code : Status) (s : State) : State := respond code 0 s

/-- The command port accepts the command `c`, after which the outside does `rest` (R60). -/
def acceptCommand (c : Command) (rest : List HostInput) (s : State) : State :=
  { s with inputs := rest, accepted := s.accepted ++ [c] }

/-- The block's part of reset: `SEEDED <- 0`, `IDX <- 624`, and the words of `MT` hold no value (R170), whatever an
abandoned command had done (R173). What has passed at the ports stays passed. -/
def resetBlock (s : State) : State := { s with mt := none, idx := 624, seeded := false }

/-- Reset takes effect, after which the outside does `rest`. A command in flight gets no response (R170). -/
def acceptReset (rest : List HostInput) (s : State) : State := resetBlock { s with inputs := rest }

/-- The outside presents one more command word, before everything else it was going to do. The word comes from requester
number 0. -/
def presentCommand (w : CommandWord) (s : State) : State :=
  { s with inputs := .command { requester := 0, word := w } :: s.inputs }

end Sys2Proof.Machine
end

