-- ==== Sys2Proof/Machine/TwistUnit.lean ====
section
/-! DEFINITION. twist_transition_unit (41_twist.md): the in-place, strictly sequential regeneration of the array. It has
no command of its own (R100). -/

namespace Sys2Proof.Machine

/-- `x`: the top bit of one word and the low 31 bits of the next, summed (R101). -/
def twistX (cur nxt : Word) : Word := (cur &&& Config.upperMask) + (nxt &&& Config.lowerMask)

/-- `x_a`: `x >> 1`, XOR `A` when `x` is odd, that is when `x[0] = 1` (R12, R101). -/
def twistXa (x : Word) : Word :=
  if x.getLsbD 0 then (x >>> 1) ^^^ Config.twistA else x >>> 1

/-- The per-position step as a function of three words (R102). -/
def twistStep (cur nxt far : Word) : Word := far ^^^ twistXa (twistX cur nxt)

/-- Step `i` of the pass, on the array as it stands at that moment (R101, R103). -/
def twistAt (i : MtIndex) (m : MtArray) : MtArray :=
  writeMt m i (twistStep (readMt m i) (readMt m (i + 1)) (readMt m (i + Config.twistOffset)))

/-- The steps 0 .. k-1 of the pass, in increasing order (R101). -/
def twistSteps : Nat → MtArray → MtArray
  | 0, m => m
  | k + 1, m => twistAt (Fin.ofNat 624 k) (twistSteps k m)

/-- `twist()`'s effect on the array: all 624 steps (R101). The `IDX <- 0` of the twist is the index manager's
(`regenerate`). -/
def twist (m : MtArray) : MtArray := twistSteps Config.stateLength m

end Sys2Proof.Machine
end

