-- ==== Sys2Proof/Machine/IndexManager.lean ====
section
/-! DEFINITION. index_manager (42_next_temper.md, R120): the regeneration test, the read index and the increment. -/

namespace Sys2Proof.Machine

/-- The regeneration test `IDX >= 624` (R122): every value from 624 up to 1023 triggers it (R24). -/
def needsTwist (idx : Cursor) : Bool := decide (624 ≤ idx.toNat)

/-- Step 1 of NEXT: when `IDX >= 624` the twist runs and leaves `IDX = 0` (R101, R120, R121). -/
def regenerate (m : MtArray) (idx : Cursor) : MtArray × Cursor :=
  if needsTwist idx then (twist m, 0) else (m, idx)

/-- `IDX` as the read index of the state word (R120). After `regenerate` the cursor is at most 623, so the reduction
mod 624 of `Fin.ofNat` changes nothing (R41). -/
def readIndex (idx : Cursor) : MtIndex := Fin.ofNat 624 idx.toNat

/-- Step 4 of NEXT: `IDX <- IDX + 1` (R121). -/
def advance (idx : Cursor) : Cursor := idx + 1

end Sys2Proof.Machine
end

