-- ==== Sys2Proof/Machine/Tempering.lean ====
section
/-! DEFINITION. tempering_pipeline (42_next_temper.md): a pure function of one word (R126), in four steps (R127). -/

namespace Sys2Proof.Machine

/-- `y1 = y XOR ((y >> 11) & 0xFFFFFFFF)` (R127). -/
def temper1 (y : Word) : Word := y ^^^ ((y >>> Config.temperU) &&& Config.temperD)

/-- `y2 = y1 XOR ((y1 << 7) & 0x9D2C5680)` (R127). -/
def temper2 (y : Word) : Word := y ^^^ ((y <<< Config.temperS) &&& Config.temperB)

/-- `y3 = y2 XOR ((y2 << 15) & 0xEFC60000)` (R127). -/
def temper3 (y : Word) : Word := y ^^^ ((y <<< Config.temperT) &&& Config.temperC)

/-- `y4 = y3 XOR (y3 >> 18)` (R127). -/
def temper4 (y : Word) : Word := y ^^^ (y >>> Config.temperL)

/-- `temper(y)` (R127): each step uses the result of the one before. -/
def temper (y : Word) : Word := temper4 (temper3 (temper2 (temper1 y)))

end Sys2Proof.Machine
end

