-- ==== Sys2Proof/Machine/NextOutput.lean ====
section
/-! DEFINITION. Next-output extraction (42_next_temper.md): the command NEXT (R121). -/

namespace Sys2Proof.Machine

/-- NEXT in a seeded block whose array holds the words `m`: the steps 1 to 5 of R121. -/
def extractNext (m : MtArray) (s : State) : State :=
  let regenerated := regenerate m s.idx
  let y := readMt regenerated.1 (readIndex regenerated.2)
  respond .ok (temper y) { s with mt := some regenerated.1, idx := advance regenerated.2 }

/-- NEXT (R121). Unseeded, it answers `E_UNSEEDED` and changes nothing (R143). `DATA` is ignored (R63). The fault is the
treatment of U3 for a read of an array that holds no value. -/
def execNext (_data : Word) (s : State) : Host.Outcome State Fault Refusal :=
  if s.seeded then
    match s.mt with
    | some m => .next (extractNext m s)
    | none => .fault .mtHoldsNoValue
  else .next (raiseError .eUnseeded s)

end Sys2Proof.Machine
end

