-- ==== Sys2Proof/Machine/ReservedWord.lean ====
section
/-! DEFINITION. The reserved command words, OP = 0b11 (R64). -/

namespace Sys2Proof.Machine

/-- A reserved word, whatever its `DATA`: answered `E_ILLEGAL` with `DATA = 0`, no state change (R64, R141, R142). -/
def execReserved (_data : Word) (s : State) : Host.Outcome State Fault Refusal :=
  .next (raiseError .eIllegal s)

end Sys2Proof.Machine
end

