-- ==== Sys2Proof/Machine/Flags.lean ====
section
/-! DEFINITION. The flag `SEEDED` (R27), the status codes and the response word (R66). The block has no condition codes. -/

namespace Sys2Proof.Machine

/-- `SEEDED <- 1` (R81). Nothing but reset clears it (R27). -/
def setSeeded (s : State) : State := { s with seeded := true }

/-- The value of the `ST` field for a status (R66). -/
def statusCode : Status → BitVec 2
  | .ok => 0b00
  | .eUnseeded => 0b01
  | .eIllegal => 0b10

/-- The status an `ST` field stands for; the code 0b11 is reserved (R66). -/
def statusOf (st : BitVec 2) : Option Status :=
  match st with
  | 0b00#2 => some .ok
  | 0b01#2 => some .eUnseeded
  | 0b10#2 => some .eIllegal
  | 0b11#2 => none

/-- A status that reports an error cause (R141). -/
def Status.isError : Status → Bool
  | .ok => false
  | .eUnseeded => true
  | .eIllegal => true

/-- The response word of a response, `{ST, DATA}` (R66). -/
def responseWord (r : Response) : ResponseWord := statusCode r.status ++ r.data

/-- The response a 34-bit word stands for; none for the reserved status (R66, U8). -/
def responseOf (w : ResponseWord) : Option Response :=
  match statusOf (w.extractLsb' 32 2) with
  | some st => some { status := st, data := w.extractLsb' 0 32 }
  | none => none

end Sys2Proof.Machine
end

