-- ==== Sys2Proof/Machine/Operands.lean ====
section
/-! DEFINITION. The operand forms (R63): the explicit seed of SEED, and the omitted seed of SEED.DEFAULT. NEXT and the
reserved words have no operand. -/

namespace Sys2Proof.Machine

/-- The seed of SEED: `DATA[31:0]`, unsigned, not extended, scaled or shifted (R63). -/
def explicitSeed (data : Word) : Word := data

/-- The seed of SEED.DEFAULT, whatever its `DATA` (R63, R84). -/
def omittedSeed (_data : Word) : Word := Config.defaultSeed

end Sys2Proof.Machine
end

