-- ==== Sys2Proof/Machine/SeedInit.lean ====
section
/-! DEFINITION. seed_init_logic (40_seed_init.md): the seeding fill (R80), and the commands SEED (R81) and SEED.DEFAULT
(R84). -/

namespace Sys2Proof.Machine

/-- One step of the linear recurrence: `(F * (p XOR (p >> 30)) + i) mod 2^32`, where `p` is the word before (R80, R82). -/
def seedRecurrence (p : Word) (i : Nat) : Word :=
  Config.seedMultiplier * (p ^^^ (p >>> Config.seedShift)) + BitVec.ofNat 32 i

/-- The word the recurrence gives at position `i`: the seed at 0, and every later word from the one before it (R80). -/
def seedWord (seed : Word) : Nat → Word
  | 0 => seed
  | i + 1 => seedRecurrence (seedWord seed i) (i + 1)

/-- The word the fill writes at position `i`: with `SEED_FILL_LAST = false` the recurrence stops at 622 and
`MT[623] <- 0` (R80). -/
def fillWord (fillLast : Bool) (seed : Word) (i : Nat) : Word :=
  if !fillLast && i == 623 then 0 else seedWord seed i

/-- `seed_fill(s)`: the whole state array from a 32-bit seed (R80). -/
def seedFill (fillLast : Bool) (seed : Word) : MtArray :=
  Vector.mk ((List.range 624).map (fillWord fillLast seed)).toArray (by simp)

/-- What SEED does to the block: fill the array, `IDX <- 624`, `SEEDED <- 1` (R81). -/
def construct (fillLast : Bool) (seed : Word) (s : State) : State :=
  setSeeded { s with mt := some (seedFill fillLast seed), idx := 624 }

/-- SEED (R81): accepted in every state, always `OK` with `DATA = 0`. -/
def execSeed (data : Word) (s : State) : Host.Outcome State Fault Refusal :=
  .next (respond .ok 0 (construct Config.seedFillLast (explicitSeed data) s))

/-- SEED.DEFAULT (R84): as SEED with the seed 5489; `DATA` is ignored (R63). -/
def execSeedDefault (data : Word) (s : State) : Host.Outcome State Fault Refusal :=
  .next (respond .ok 0 (construct Config.seedFillLast (omittedSeed data) s))

end Sys2Proof.Machine
end

