-- ==== Sys2Proof/Machine/Dispatch.lean ====
section
/-! DEFINITION. One arm per row of the opcode table (R62, R64). -/

namespace Sys2Proof.Machine

/-- The effect of one command. -/
def exec (i : Instr) (s : State) : Host.Outcome State Fault Refusal :=
  match i with
  | .next data => Sys2Proof.Machine.execNext data s
  | .seed data => Sys2Proof.Machine.execSeed data s
  | .seedDefault data => Sys2Proof.Machine.execSeedDefault data s
  | .reserved data => Sys2Proof.Machine.execReserved data s

end Sys2Proof.Machine
end

