-- ==== Sys2Proof/Machine/Step.lean ====
section
/-! DEFINITION. One step of the block: one whole transaction (R45, R60), one reset (R170), or idling (R162). The block
fetches nothing (R21, R50): it runs the command that the host presents. -/

namespace Sys2Proof.Machine

/-- One step. With nothing presented the block is idle and holds its state (R162). A command word is accepted, decoded
(R69) and carried out to its response before anything else happens (R45). Reset takes effect at once (R170). -/
def step (s : State) : Host.Outcome State Fault Refusal :=
  match s.inputs with
  | [] => .next s
  | .command c :: rest => exec (decode c.word) (acceptCommand c rest s)
  | .reset _ _ :: rest => .next (acceptReset rest s)

/-- `s` with the command word of these bits presented next at the command port; `s` itself where the bits are no command
word, and so no instruction. -/
def State.withFetchWord (s : State) (nbits w : Nat) : State :=
  match tableWord nbits w with
  | .ok c => presentCommand c s
  | .error _ => s

end Sys2Proof.Machine
end

