-- ==== Sys2Proof/WellFormed.lean ====
section
/-! DEFINITION. Which commands an assembler emits: `DATA = 0` where the block ignores it (R63, R67), and never a reserved
word (R64). The MACHINE runs every command, well-formed or not: this check is no premise of any step. -/

namespace Sys2Proof

/-- The command is one the assembler of R67 emits. -/
def Instr.wellFormed : Instr → Bool
  | .next d => d == 0
  | .seed _ => true
  | .seedDefault d => d == 0
  | .reserved _ => false

/-- The command with the `DATA` the block ignores put to 0, as the assembler emits it (R63). -/
def Instr.canonical : Instr → Instr
  | .next _ => .next 0
  | .seed d => .seed d
  | .seedDefault _ => .seedDefault 0
  | .reserved d => .reserved d

end Sys2Proof
end

