-- ==== Sys2Proof/Machine/Assembler.lean ====
section
/-! DEFINITION. The assembly syntax of command streams (R67) and its pseudo-commands (R68). The block never sees any of
it: the assembler ends at the command words the host presents. -/

namespace Sys2Proof.Machine

/-- Why the assembler rejects a line (R67). -/
inductive AsmError where
  /-- A mnemonic that is none of NEXT, SEED, SEED.DEFAULT, SKIP. -/
  | unknownMnemonic
  /-- A literal above 4294967295, or a SKIP count of 0 (R68: 1 ≤ k). -/
  | literalOutOfRange
  /-- A literal with a minus sign. -/
  | negativeLiteral
  /-- An operand that is no literal of the syntax. -/
  | malformedLiteral
  /-- An operand on NEXT or SEED.DEFAULT, or a second operand. -/
  | unexpectedOperand
  /-- SKIP with no operand. -/
  | missingOperand
  deriving DecidableEq, Repr

/-- One line of assembly. -/
inductive AsmLine where
  /-- A line with no mnemonic: empty, or a comment only. -/
  | blank
  /-- `NEXT`. -/
  | next
  /-- `SEED <u32>`. -/
  | seed (literal : Word)
  /-- The pseudo-command `SEED` with no operand (R68). -/
  | seedOmitted
  /-- `SEED.DEFAULT`. -/
  | seedDefault
  /-- The pseudo-command `SKIP <k>` (R68). -/
  | skip (k : Nat)
  deriving DecidableEq, Repr

/-- The instructions a line stands for (R67, R68). -/
def AsmLine.expand : AsmLine → List Instr
  | .blank => []
  | .next => [.next 0]
  | .seed literal => [.seed literal]
  | .seedOmitted => [.seedDefault 0]
  | .seedDefault => [.seedDefault 0]
  | .skip k => List.replicate k (.next 0)

/-- The pieces of a text between the characters that `sep` picks out. -/
def splitAt (sep : Char → Bool) : List Char → List (List Char)
  | [] => [[]]
  | c :: cs =>
    match splitAt sep cs with
    | [] => [[c]]
    | piece :: pieces => if sep c then [] :: piece :: pieces else (c :: piece) :: pieces

/-- A space, a tab or a carriage return. -/
def isBlankChar (c : Char) : Bool := c == ' ' || c == '\t' || c == '\r'

/-- The words of a line, without its comment: from `;` to the end of the line (R67). -/
def lineWords (line : List Char) : List (List Char) :=
  (splitAt isBlankChar (line.takeWhile (· != ';'))).filter (fun piece => !piece.isEmpty)

/-- The value of a decimal digit. -/
def decimalDigit (c : Char) : Option Nat :=
  if '0' ≤ c ∧ c ≤ '9' then some (c.toNat - '0'.toNat) else none

/-- The value of a hexadecimal digit, of either case. -/
def hexDigit (c : Char) : Option Nat :=
  if 'a' ≤ c ∧ c ≤ 'f' then some (c.toNat - 'a'.toNat + 10)
  else if 'A' ≤ c ∧ c ≤ 'F' then some (c.toNat - 'A'.toNat + 10)
  else decimalDigit c

/-- The number that digits stand for in a base, after the digits already read. -/
def digitsValue (base : Nat) (digit : Char → Option Nat) : List Char → Nat → Option Nat
  | [], read => some read
  | c :: cs, read =>
    match digit c with
    | some d => digitsValue base digit cs (base * read + d)
    | none => none

/-- The number a literal stands for: decimal, or hexadecimal with the prefix `0x` (R67). -/
def literalValue : List Char → Except AsmError Nat
  | [] => .error .malformedLiteral
  | '-' :: _ => .error .negativeLiteral
  | ['0', 'x'] => .error .malformedLiteral
  | '0' :: 'x' :: digits =>
    match digitsValue 16 hexDigit digits 0 with
    | some v => .ok v
    | none => .error .malformedLiteral
  | digits =>
    match digitsValue 10 decimalDigit digits 0 with
    | some v => .ok v
    | none => .error .malformedLiteral

/-- A `<u32>`: a literal in 0 to 4294967295 (R67). -/
def u32Value (literal : List Char) : Except AsmError Nat :=
  match literalValue literal with
  | .ok v => if v < 2 ^ 32 then .ok v else .error .literalOutOfRange
  | .error e => .error e

/-- The line `SEED` followed by the given operands (R67, R68). -/
def seedLine : List (List Char) → Except AsmError AsmLine
  | [] => .ok .seedOmitted
  | [literal] =>
    match u32Value literal with
    | .ok v => .ok (.seed (BitVec.ofNat 32 v))
    | .error e => .error e
  | _ => .error .unexpectedOperand

/-- The line `SKIP` followed by the given operands: 1 ≤ k ≤ 2^32 - 1 (R68). R68 gives only the range of k and not its
written form: that k is written like the `<u32>` of R67, decimal or hexadecimal with `0x`, is the model's DESIGN CHOICE, as
is the rejection of no operand and of a second one (log entry 14). -/
def skipLine : List (List Char) → Except AsmError AsmLine
  | [] => .error .missingOperand
  | [literal] =>
    match u32Value literal with
    | .ok v => if v = 0 then .error .literalOutOfRange else .ok (.skip v)
    | .error e => .error e
  | _ => .error .unexpectedOperand

/-- A line whose mnemonic takes no operand (R67). -/
def plainLine (line : AsmLine) : List (List Char) → Except AsmError AsmLine
  | [] => .ok line
  | _ => .error .unexpectedOperand

/-- One line of assembly read: mnemonics are case-insensitive (R67). -/
def parseLine (line : List Char) : Except AsmError AsmLine :=
  match lineWords line with
  | [] => .ok .blank
  | mnemonic :: operands =>
    let name := mnemonic.map Char.toLower
    if name = ['n', 'e', 'x', 't'] then plainLine .next operands
    else if name = ['s', 'e', 'e', 'd'] then seedLine operands
    else if name = ['s', 'e', 'e', 'd', '.', 'd', 'e', 'f', 'a', 'u', 'l', 't'] then plainLine .seedDefault operands
    else if name = ['s', 'k', 'i', 'p'] then skipLine operands
    else .error .unknownMnemonic

/-- The instructions of a list of lines, or the first line's rejection. -/
def assembleLines : List (List Char) → Except AsmError (List Instr)
  | [] => .ok []
  | line :: lines =>
    match parseLine line with
    | .error e => .error e
    | .ok parsed =>
      match assembleLines lines with
      | .error e => .error e
      | .ok rest => .ok (parsed.expand ++ rest)

/-- The command words of a text, one command per line (R67). -/
def assemble (text : List Char) : Except AsmError (List CommandWord) :=
  match assembleLines (splitAt (· == '\n') text) with
  | .ok instrs => .ok (instrs.map encode)
  | .error e => .error e

end Sys2Proof.Machine
end

