-- ==== Sys2Proof/Safety.lean ====
section
/-! DEFINITION. The terms claims use: the invariant between commands (R22 to R29), the runs that count as faulted (R148),
the outputs of a run, runs of several commands (R45, R124), and generations of the array (R124). -/

namespace Sys2Proof.Machine

/-- The state belongs to a block between commands: the array holds values exactly when the block is seeded (R23, R27),
the cursor is in 1..624 (R25, R26), and every command answered has its one response (R60). -/
abbrev State.Inv (s : State) : Prop :=
  s.mt.isSome = s.seeded ∧ 1 ≤ s.idx.toNat ∧ s.idx.toNat ≤ 624 ∧ s.responses.length = s.accepted.length

/-- The state can extract: it is seeded, and its array holds values. -/
abbrev State.Ready (s : State) : Prop := s.seeded = true ∧ s.mt.isSome = true

/-- R148: a run with an error response is flagged as faulted. The flag is read off the responses; the block keeps none
(R29, R141). -/
def State.runFaulted (s : State) : Bool := s.responses.any (fun r => r.status.isError)

/-- What one transaction contributes to the outputs: the result of a NEXT answered `OK`, and nothing else. The `DATA = 0`
of an error response or of a seeding command is no output (R66, R148). -/
def outputOf (c : Command) (r : Response) : Option Word :=
  match decode c.word, r.status with
  | .next _, .ok => some r.data
  | _, _ => none

/-- The outputs of the run so far, oldest first. -/
def State.outputs (s : State) : List Word :=
  (List.zip s.accepted s.responses).filterMap (fun t => outputOf t.1 t.2)

/-- The responses that go to one requester (R160), oldest first. -/
def State.responsesTo (requester : Nat) (s : State) : List Response :=
  (List.zip s.accepted s.responses).filterMap
    (fun t => if t.1.requester = requester then some t.2 else none)

/-- A renaming of the requesters, of a command. -/
def Command.rename (f : Nat → Nat) (c : Command) : Command := { c with requester := f c.requester }

/-- A renaming of the requesters, of what the outside does next. -/
def HostInput.rename (f : Nat → Nat) : HostInput → HostInput
  | .command c => .command (c.rename f)
  | .reset cause inFlight => .reset cause (inFlight.map (Command.rename f))

/-- A renaming of the requesters, throughout a state. -/
def State.rename (f : Nat → Nat) (s : State) : State :=
  { s with inputs := s.inputs.map (HostInput.rename f), accepted := s.accepted.map (Command.rename f) }

/-- The seed of a seeding command: SEED's operand, or the default seed of SEED.DEFAULT (R81, R84). -/
def seedOf : Instr → Option Word
  | .next _ => none
  | .seed x => some x
  | .seedDefault _ => some 5489
  | .reserved _ => none

/-- The commands carried out one after another, each on the state its predecessor left (R45, R46). -/
def execAll : List Instr → State → Host.Outcome State Fault Refusal
  | [], s => .next s
  | i :: is, s =>
    match exec i s with
    | .next t => execAll is t
    | .fault e => .fault e
    | .refused e => .refused e

/-- The array after the given number of twists. -/
def twistTimes : Nat → MtArray → MtArray
  | 0, m => m
  | g + 1, m => twist (twistTimes g m)

/-- `G_g`: the array after the g-th twist since seeding (R124). -/
def generation (fillLast : Bool) (seed : Word) (g : Nat) : MtArray := twistTimes g (seedFill fillLast seed)

/-- The output of the k-th successful NEXT since seeding, counted from k = 1 (R124). -/
def nthOutput (fillLast : Bool) (seed : Word) (k : Nat) : Word :=
  temper (readMt (generation fillLast seed ((k - 1) / 624 + 1)) (Fin.ofNat 624 ((k - 1) % 624)))

/-- The all-zero array (R83). -/
def zeroArray : MtArray := Vector.replicate 624 0

/-- The twist that R103 calls incorrect: every word computed from the old array. It is no part of the machine. -/
def copyTwist (m : MtArray) : MtArray :=
  Vector.ofFn (fun i : MtIndex =>
    twistStep (readMt m i) (readMt m (i + 1)) (readMt m (i + Config.twistOffset)))

end Sys2Proof.Machine
end

