-- ==== Sys2Proof/Certificates/Slice0/Obligations.lean ====
section
/-! DEFINITION. The statements for the provers. Each says what the block, or a piece of it, does, from a rule of spec/. -/

open Sys2Proof Sys2Proof.Machine

/-- R69 (and the opcode map of R62): `OP`, the two bits above the 32 of `DATA`, alone selects the command, and every
34-bit word is one of the four. -/
def Obligations.OpcodeAloneSelectsCommand : Prop :=
  ∀ w : CommandWord,
    let data : Word := BitVec.ofNat 32 (w.toNat % 2 ^ 32)
    (w.toNat / 2 ^ 32 = 0 → decode w = .next data) ∧
    (w.toNat / 2 ^ 32 = 1 → decode w = .seed data) ∧
    (w.toNat / 2 ^ 32 = 2 → decode w = .seedDefault data) ∧
    (w.toNat / 2 ^ 32 = 3 → decode w = .reserved data) ∧
    w.toNat / 2 ^ 32 ≤ 3

/-- The command words of 95_test_vectors.md, table 2.5, decode as that table lists them. -/
def Obligations.ListedWordsDecode : Prop :=
  decode 0x000000000#34 = .next 0 ∧ decode 0x0FFFFFFFF#34 = .next 0xFFFFFFFF ∧
  decode 0x100000000#34 = .seed 0 ∧ decode 0x100000020#34 = .seed 32 ∧
  decode 0x1FFFFFFFF#34 = .seed 4294967295 ∧ decode 0x200000000#34 = .seedDefault 0 ∧
  decode 0x200001571#34 = .seedDefault 0x1571 ∧ decode 0x300000000#34 = .reserved 0 ∧
  decode 0x3DEADBEEF#34 = .reserved 0xDEADBEEF

/-- 30_encoding.md, sections 2, 3 and 7: no bit of a command word is dropped in decoding, and none is made up. -/
def Obligations.DecodeAndEncodeAreInverse : Prop :=
  (∀ i : Instr, decode (encode i) = i) ∧ (∀ w : CommandWord, encode (decode w) = w)

/-- 30_encoding.md R65: a bit pattern is a command exactly when it fits in 34 bits, and what does not fit is rejected by
name. -/
def Obligations.OnlyThirtyFourBitsDecode : Prop :=
  ∀ v : Nat,
    (v < 2 ^ 34 → decodeBits v = .ok (decode (BitVec.ofNat 34 v))) ∧
    (2 ^ 34 ≤ v → decodeBits v = .error .widerThanCommandWord)

/-- A step runs the decoded command, on the state in which the port has accepted it (R45, R60, R69). The inputs and the
record of accepted commands are the model's own fields (log entry 5, DESIGN CHOICE). -/
def Obligations.StepRunsDecodedCommand : Prop :=
  ∀ (s : State) (c : Command) (rest : List HostInput), s.inputs = .command c :: rest →
    step s = exec (decode c.word) { s with inputs := rest, accepted := s.accepted ++ [c] }

/-- R162: with nothing presented the block is idle and holds everything, and after a loss of power it starts again at
reset. -/
def Obligations.IdleHoldsStateAndPowerLossResets : Prop :=
  (∀ s : State, s.inputs = [] → step s = .next s) ∧
  (∀ (s : State) (inFlight : Option Command) (rest : List HostInput),
    s.inputs = .reset .powerLoss inFlight :: rest →
    ∃ t, step s = .next t ∧ t.mt = State.reset.mt ∧ t.idx = State.reset.idx ∧ t.seeded = State.reset.seeded)

/-- R170, R173: reset, asserted at any time, leaves `SEEDED = 0`, `IDX = 624` and an array that holds no value, answers no
abandoned command, and leaves the block idle, ready to accept its first command. That the record of the port stays as it
is (`t.accepted = s.accepted`, the abandoned command not recorded) and that the rest of the inputs remains are the model's
choice (log entry 5, DESIGN CHOICE, with log entry 8), and no sentence of those rules. -/
def Obligations.ResetAbandonsAndRestores : Prop :=
  ∀ (s : State) (cause : ResetCause) (inFlight : Option Command) (rest : List HostInput),
    s.inputs = .reset cause inFlight :: rest →
    ∃ t, step s = .next t ∧ t.mt = none ∧ t.idx.toNat = 624 ∧ t.seeded = false ∧
      t.responses = s.responses ∧ t.accepted = s.accepted ∧ t.inputs = rest ∧
      (rest = [] → step t = .next t) ∧
      (∀ (c : Command) (later : List HostInput), rest = .command c :: later →
        step t = exec (decode c.word) { t with inputs := later, accepted := t.accepted ++ [c] })

/-- 70_reset_and_hazards.md, section 1: what reset leaves in the block. -/
def Obligations.ResetStateOfBlock : Prop :=
  State.reset.mt = none ∧ State.reset.idx.toNat = 624 ∧ State.reset.seeded = false

/-- 60_exceptions.md R143: NEXT while `SEEDED = 0` is answered `E_UNSEEDED` with `DATA = 0`, and nothing else changes. -/
def Obligations.NextUnseededIsRefusedWithoutEffect : Prop :=
  ∀ (s : State) (d : Word), s.seeded = false →
    exec (.next d) s = .next { s with responses := s.responses ++ [{ status := .eUnseeded, data := 0 }] }

/-- 60_exceptions.md R142: a reserved word is answered `E_ILLEGAL` with `DATA = 0`, whatever its `DATA`, and nothing else changes. -/
def Obligations.ReservedWordIsIllegalWithoutEffect : Prop :=
  ∀ (s : State) (d : Word),
    exec (.reserved d) s = .next { s with responses := s.responses ++ [{ status := .eIllegal, data := 0 }] }

/-- R80, R82: the seeding fill, for both values of `SEED_FILL_LAST`, with the arithmetic written on natural numbers. -/
def Obligations.SeedFillFollowsRecurrence : Prop :=
  ∀ (fillLast : Bool) (seed : Word),
    let word := fun i : Nat => readMt (seedFill fillLast seed) (Fin.ofNat 624 i)
    word 0 = seed ∧
    (∀ i, 1 ≤ i → i ≤ (if fillLast then 623 else 622) →
      (word i).toNat =
        (1812433253 * ((word (i - 1)).toNat ^^^ ((word (i - 1)).toNat / 2 ^ 30)) + i) % 2 ^ 32) ∧
    (fillLast = false → word 623 = 0)

/-- 40_seed_init.md R81: SEED, in every state, fills the array from the seed by the recurrence up to word 623, sets
`IDX = 624` and `SEEDED = 1`, answers `OK` with `DATA = 0`, and changes nothing else. The fill up to word 623 is
`SEED_FILL_LAST = true`, as R10 has it for this hardware (log entry 4). -/
def Obligations.SeedInitialisesBlock : Prop :=
  ∀ (s : State) (seed : Word), ∃ m : MtArray,
    exec (.seed seed) s = .next { s with
      mt := some m
      idx := 624
      seeded := true
      responses := s.responses ++ [{ status := .ok, data := 0 }] } ∧
    readMt m 0 = seed ∧
    ∀ i, 1 ≤ i → i ≤ 623 →
      (readMt m (Fin.ofNat 624 i)).toNat =
        (1812433253 * ((readMt m (Fin.ofNat 624 (i - 1))).toNat ^^^
          ((readMt m (Fin.ofNat 624 (i - 1))).toNat / 2 ^ 30)) + i) % 2 ^ 32

/-- 40_seed_init.md R84: SEED.DEFAULT, whatever its `DATA`, is the same in state and response as SEED 5489. -/
def Obligations.SeedDefaultIsSeed5489 : Prop :=
  ∀ (s : State) (d : Word), ∃ t : State,
    exec (.seedDefault d) s = .next t ∧ exec (.seed 5489) s = .next t ∧
    t.seeded = true ∧ t.idx.toNat = 624 ∧ (∃ m, t.mt = some m ∧ readMt m 0 = 5489) ∧
    t.responses = s.responses ++ [{ status := .ok, data := 0 }] ∧ t.inputs = s.inputs ∧ t.accepted = s.accepted

/-- 20_memory.md R47: two identical seedings in a row leave the block as one does, and a NEXT that succeeds always moves
the cursor. -/
def Obligations.SeedIsIdempotentAndNextIsNot : Prop :=
  (∀ (i : Instr) (s : State), ((∃ x, i = .seed x) ∨ ∃ d, i = .seedDefault d) →
    ∃ t u, exec i s = .next t ∧ exec i t = .next u ∧ u.mt = t.mt ∧ u.idx = t.idx ∧ u.seeded = t.seeded) ∧
  (∀ (s : State) (d : Word), s.Ready → ∃ t, exec (.next d) s = .next t ∧ t.idx ≠ s.idx)

/-- 10_state.md R30: after a seeding, the data of every response depends on the seed and on the number of NEXTs since, and
on nothing earlier: two blocks in any two states, seeded alike by whichever of the two seeding commands and sent the same
number of NEXTs, answer alike. -/
def Obligations.SeedFixesEveryLaterResponse : Prop :=
  ∀ (s₁ s₂ : State) (i₁ i₂ : Instr) (seed : Word) (ds₁ ds₂ : List Word),
    seedOf i₁ = some seed → seedOf i₂ = some seed → ds₁.length = ds₂.length →
    ∃ t₁ t₂ u₁ u₂ news,
      exec i₁ s₁ = .next t₁ ∧ exec i₂ s₂ = .next t₂ ∧
      execAll (ds₁.map .next) t₁ = .next u₁ ∧ execAll (ds₂.map .next) t₂ = .next u₂ ∧
      news.length = ds₁.length ∧
      u₁.responses = t₁.responses ++ news ∧ u₂.responses = t₂.responses ++ news ∧
      u₁.mt = u₂.mt ∧ u₁.idx = u₂.idx ∧ u₁.seeded = u₂.seeded

/-- R83: every seed is accepted, no seed gives the all-zero array, and that array is a fixed point of the twist from which
every output is `temper(0) = 0`. -/
def Obligations.NoSeedGivesZeroArray : Prop :=
  (∀ (seed : Word) (s : State), ∃ t, exec (.seed seed) s = .next t ∧
    t.responses = s.responses ++ [{ status := .ok, data := 0 }] ∧ t.mt ≠ some zeroArray) ∧
  readMt (seedFill true 0) 1 = 1 ∧
  (∀ (fillLast : Bool) (seed : Word), seedFill fillLast seed ≠ zeroArray) ∧
  twist zeroArray = zeroArray ∧
  (∀ (s : State) (d : Word), s.seeded = true → s.mt = some zeroArray → ∃ t, exec (.next d) s = .next t ∧
    t.mt = some zeroArray ∧ t.responses = s.responses ++ [{ status := .ok, data := 0 }])

/-- R102: the step of the twist as a function of three words, and the pass made of such steps in increasing order. -/
def Obligations.TwistStepIsOrForm : Prop :=
  (∀ cur nxt far : Word,
    let x : Word := (cur &&& 0x80000000#32) ||| (nxt &&& 0x7FFFFFFF#32)
    twistStep cur nxt far = far ^^^ ((x >>> 1) ^^^ (if x.toNat % 2 = 1 then 0x9908B0DF#32 else 0#32))) ∧
  (∀ (m : MtArray) (k : Nat), k < 624 →
    let before := twistSteps k m
    twistSteps (k + 1) m = writeMt before (Fin.ofNat 624 k)
      (twistStep (readMt before (Fin.ofNat 624 k)) (readMt before (Fin.ofNat 624 ((k + 1) % 624)))
        (readMt before (Fin.ofNat 624 ((k + 397) % 624))))) ∧
  (∀ m : MtArray, twist m = twistSteps 624 m)

/-- 41_twist.md R101, corner cases: only bit 31 of one word and bits 30..0 of the next enter the step, and `x_a[31]` is
set exactly when `x` is odd. -/
def Obligations.TwistStepIgnoresMaskedBits : Prop :=
  (∀ cur cur' nxt nxt' far : Word, cur.getLsbD 31 = cur'.getLsbD 31 →
    (∀ i, i < 31 → nxt.getLsbD i = nxt'.getLsbD i) → twistStep cur nxt far = twistStep cur' nxt' far) ∧
  (∀ x : Word, (twistXa x).getLsbD 31 = x.getLsbD 0)

/-- R104 (with the read table of R103): an array is the twist of another exactly when every one of its words comes from
the three reads of the three-phase form, whatever the order or parallelism it was computed in. -/
def Obligations.TwistIsThreePhaseForm : Prop :=
  ∀ old new : MtArray,
    let o := fun i : Nat => readMt old (Fin.ofNat 624 i)
    let n := fun i : Nat => readMt new (Fin.ofNat 624 i)
    new = twist old ↔
      (∀ i, i ≤ 226 → n i = twistStep (o i) (o (i + 1)) (o (i + 397))) ∧
      (∀ i, 227 ≤ i → i ≤ 622 → n i = twistStep (o i) (o (i + 1)) (n (i - 227))) ∧
      n 623 = twistStep (o 623) (n 0) (n 396)

/-- 41_twist.md R103, last paragraph: a twist that reads only old words agrees on the words 0 to 226, and is a different
function. -/
def Obligations.CopyBasedTwistDiffers : Prop :=
  (∀ (m : MtArray) (i : MtIndex), i.val ≤ 226 → readMt (copyTwist m) i = readMt (twist m) i) ∧
  (∃ m : MtArray, readMt (copyTwist m) 227 ≠ readMt (twist m) 227)

/-- 41_twist.md R105: the last word of the array enters the next twist in the words 226, 622 and 623 at the earliest, so
the two fills give the same new words 0 to 225. -/
def Obligations.LastWordLeavesFirst226WordsAlone : Prop :=
  (∀ m m' : MtArray, (∀ i : MtIndex, i.val ≠ 623 → readMt m i = readMt m' i) →
    ∀ i : MtIndex, i.val ≤ 225 → readMt (twist m) i = readMt (twist m') i) ∧
  (∀ (seed : Word) (i : MtIndex), i.val ≤ 225 →
    readMt (twist (seedFill true seed)) i = readMt (twist (seedFill false seed)) i)

/-- 42_next_temper.md R121, R122: NEXT in a seeded block, in every position of the cursor, the unreachable ones from 625
to 1023 among them: what it returns, and all that it changes. -/
def Obligations.NextReturnsTemperedWord : Prop :=
  ∀ (s : State) (m : MtArray) (d : Word), s.seeded = true → s.mt = some m →
    (s.idx.toNat < 624 → ∀ i : MtIndex, i.val = s.idx.toNat →
      exec (.next d) s = .next { s with
        idx := BitVec.ofNat 10 (s.idx.toNat + 1)
        responses := s.responses ++ [{ status := .ok, data := temper (readMt m i) }] }) ∧
    (624 ≤ s.idx.toNat →
      exec (.next d) s = .next { s with
        mt := some (twist m)
        idx := 1
        responses := s.responses ++ [{ status := .ok, data := temper (readMt (twist m) 0) }] })

/-- R123: `MT` changes only in the twist, which runs in a NEXT that finds `IDX >= 624`, and in seeding. -/
def Obligations.ArrayChangesOnlyByTwistOrSeeding : Prop :=
  ∀ (i : Instr) (s t : State), exec i s = .next t → t.mt ≠ s.mt →
    (∃ x, i = .seed x) ∨ (∃ d, i = .seedDefault d) ∨
    (∃ d m, i = .next d ∧ s.seeded = true ∧ s.mt = some m ∧ 624 ≤ s.idx.toNat ∧ t.mt = some (twist m))

/-- 10_state.md R27: reset clears `SEEDED`, the two seeding commands set it, nothing else changes it, and nothing but
reset clears it. -/
def Obligations.OnlyResetClearsSeeded : Prop :=
  State.reset.seeded = false ∧
  (∀ (s : State) (x : Word), ∃ t, exec (.seed x) s = .next t ∧ t.seeded = true) ∧
  (∀ (s : State) (d : Word), ∃ t, exec (.seedDefault d) s = .next t ∧ t.seeded = true) ∧
  (∀ s t : State, step s = .next t → s.seeded = true → t.seeded = false →
    ∃ cause inFlight rest, s.inputs = .reset cause inFlight :: rest) ∧
  (∀ s t : State, step s = .next t → s.seeded = false → t.seeded = true →
    ∃ c rest, s.inputs = .command c :: rest ∧
      ((∃ x, decode c.word = .seed x) ∨ ∃ d, decode c.word = .seedDefault d))

/-- 10_state.md R26: after a NEXT that succeeds the cursor is in 1..624, whatever it was before, and after a seeding it is
624. -/
def Obligations.CursorAfterSuccess : Prop :=
  (∀ (s : State) (d : Word), s.Ready →
    ∃ t, exec (.next d) s = .next t ∧ 1 ≤ t.idx.toNat ∧ t.idx.toNat ≤ 624) ∧
  (∀ (i : Instr) (s : State), ((∃ x, i = .seed x) ∨ ∃ d, i = .seedDefault d) →
    ∃ t, exec i s = .next t ∧ t.idx.toNat = 624)

/-- The state after reset meets the invariant, whose count of responses is on the ports' records, the model's own fields,
empty at reset (log entry 5, DESIGN CHOICE). -/
def Obligations.ResetStateMeetsInvariant : Prop := State.reset.Inv

/-- From every state of the invariant a step answers a next state, never a fault and never a refusal, and the next state
meets the invariant again (10_state.md R23, R26; 60_exceptions.md R140, R144; 70_reset_and_hazards.md R185). The counted
records of the ports are the model's own fields (log entry 5, DESIGN CHOICE). -/
def Obligations.EveryStepKeepsInvariant : Prop :=
  ∀ s : State, s.Inv → ∃ t, step s = .next t ∧ t.Inv

/-- 93_implementation_defined.md U3: the one stop is a NEXT, in a seeded block, on an array that holds no value; no state
of the invariant is such a state, and no command is refused (log entry 17). -/
def Obligations.OnlyAnArrayWithoutValueStops : Prop :=
  (∀ (i : Instr) (s : State) (e : Fault),
    exec i s = .fault e ↔ ((∃ d, i = .next d) ∧ s.seeded = true ∧ s.mt = none)) ∧
  (∀ (i : Instr) (s : State) (r : Refusal), exec i s ≠ .refused r) ∧
  (∀ s : State, s.Inv → ¬ (s.seeded = true ∧ s.mt = none))

/-- R141: a command answered by an error status changes nothing but the responses, and its `DATA` is 0. -/
def Obligations.ErrorsLeaveNoTrace : Prop :=
  ∀ (i : Instr) (s t : State) (r : Response), exec i s = .next t → t.responses = s.responses ++ [r] →
    r.status ≠ .ok → r.data = 0 ∧ t = { s with responses := s.responses ++ [r] }

/-- R144, R145: what each status says of the command and of `SEEDED`, so that at most one cause applies to a word, and
decoding comes first; in a block between commands every command is answered. -/
def Obligations.ErrorCausesAreExact : Prop :=
  (∀ (i : Instr) (s t : State) (r : Response), exec i s = .next t → t.responses = s.responses ++ [r] →
    (r.status = .eIllegal ↔ ∃ d, i = .reserved d) ∧
    (r.status = .eUnseeded ↔ (∃ d, i = .next d) ∧ s.seeded = false) ∧
    (r.status = .ok ↔ (∃ x, i = .seed x) ∨ (∃ d, i = .seedDefault d) ∨ ((∃ d, i = .next d) ∧ s.seeded = true))) ∧
  (∀ (i : Instr) (s : State), s.Inv → ∃ t r, exec i s = .next t ∧ t.responses = s.responses ++ [r])

/-- 30_encoding.md R60, R66: every command gets exactly one response, behind those before it, and its response word never
has the reserved status. The record of accepted commands is the model's own field (log entry 5, DESIGN CHOICE). -/
def Obligations.EveryCommandIsAnsweredOnce : Prop :=
  ∀ (s t : State) (c : Command) (rest : List HostInput), s.inputs = .command c :: rest → step s = .next t →
    t.inputs = rest ∧ t.accepted = s.accepted ++ [c] ∧
    ∃ r, t.responses = s.responses ++ [r] ∧ (responseWord r).toNat / 2 ^ 32 < 3

/-- 30_encoding.md R66: the response word is the status code above 32 bits of data, reading it back gives the response,
and only the reserved status stands for none. -/
def Obligations.ResponseWordRoundTrip : Prop :=
  (∀ d : Word, (responseWord { status := .ok, data := d }).toNat = d.toNat ∧
    (responseWord { status := .eUnseeded, data := d }).toNat = 2 ^ 32 + d.toNat ∧
    (responseWord { status := .eIllegal, data := d }).toNat = 2 * 2 ^ 32 + d.toNat) ∧
  (∀ r : Response, responseOf (responseWord r) = some r) ∧
  (∀ w : ResponseWord, responseOf w = none ↔ w.toNat / 2 ^ 32 = 3)

/-- 30_encoding.md R63: NEXT and SEED.DEFAULT behave as with `DATA = 0`, whatever their `DATA`. -/
def Obligations.IgnoredDataHasNoEffect : Prop :=
  ∀ (s : State) (d : Word),
    exec (.next d) s = exec (.next 0) s ∧ exec (.seedDefault d) s = exec (.seedDefault 0) s

/-- R127, R128: `temper` on natural numbers, its left shifts computed wide, with no truncation. -/
def Obligations.TemperMatchesWideArithmetic : Prop :=
  ∀ y : Word,
    let y1 : Nat := y.toNat ^^^ ((y.toNat / 2 ^ 11) &&& 0xFFFFFFFF)
    let y2 : Nat := y1 ^^^ ((y1 * 2 ^ 7) &&& 0x9D2C5680)
    let y3 : Nat := y2 ^^^ ((y2 * 2 ^ 15) &&& 0xEFC60000)
    (temper y).toNat = y3 ^^^ (y3 / 2 ^ 18)

/-- R129: `temper` is a bijection on words, with the values the rule's table lists. -/
def Obligations.TemperIsBijection : Prop :=
  Function.Bijective temper ∧ temper 0 = 0 ∧ temper 0x00000001 = 0x00400091 ∧ temper 0x80000000 = 0x88102204 ∧
  temper 0xFFFFFFFF = 0x6FE01BF8

/-- R124: the NEXTs after a seeding. The k-th answers `OK` with the tempered word `(k - 1) mod 624` of generation
`(k - 1) / 624 + 1`; after it the array is that generation's, and `IDX` is `((k - 1) mod 624) + 1`. The generations start from the fill of
`SEED_FILL_LAST = true`, as R10 has it for this hardware (log entry 4). -/
def Obligations.KthNextAfterSeeding : Prop :=
  ∀ (s : State) (i : Instr) (seed : Word) (ds : List Word), seedOf i = some seed → ∃ t u : State,
    exec i s = .next t ∧ execAll (ds.map .next) t = .next u ∧
    u.responses = t.responses ++
      (List.range ds.length).map (fun j => { status := .ok, data := nthOutput true seed (j + 1) }) ∧
    u.seeded = true ∧
    (ds.length = 0 → u.idx.toNat = 624 ∧ u.mt = some (generation true seed 0)) ∧
    (1 ≤ ds.length →
      u.idx.toNat = (ds.length - 1) % 624 + 1 ∧
      u.mt = some (generation true seed ((ds.length - 1) / 624 + 1)))

/-- R125: from every seeded block whose array holds values, any number of NEXTs is answered, each `OK`, and the block can
go on. -/
def Obligations.GenerationIsUnbounded : Prop :=
  ∀ (s : State) (ds : List Word), s.Ready →
    ∃ u news, execAll (ds.map .next) s = .next u ∧ u.Ready ∧ u.responses = s.responses ++ news ∧
      news.length = ds.length ∧ ∀ r ∈ news, r.status = .ok

/-- 95_test_vectors.md S1 and 90_conflicts.md C2: the known-answer test. Seeding with 32, in any state, then NEXT returns
3688901335, and the tempered word is the same under both fills. -/
def Obligations.KnownAnswerForSeed32 : Prop :=
  (∀ (s : State) (d : Word), ∃ t, execAll [.seed 32, .next d] s = .next t ∧ t.idx.toNat = 1 ∧
    t.responses = s.responses ++ [{ status := .ok, data := 0 }, { status := .ok, data := 3688901335 }]) ∧
  (∀ fillLast : Bool, nthOutput fillLast 32 1 = 3688901335)

/-- 20_memory.md R46, 60_exceptions.md R160: which requester a command came from changes nothing but the record of it. The requesters' numbers are the model's own (log entry 7, DESIGN CHOICE). -/
def Obligations.RequestersDoNotMatter : Prop :=
  ∀ (f : Nat → Nat) (s t : State), step s = .next t → step (s.rename f) = .next (t.rename f)

/-- The response of a command goes to the requester it came from, behind the earlier ones, and to no other.
60_exceptions.md R160 says so of NEXT responses; that every command's response is routed so, by requester numbers and by
matching responses with accepted commands by position (`State.responsesTo`), is the model's choice (log entry 7, DESIGN
CHOICE, on the records of log entry 5). -/
def Obligations.EachResponseGoesToItsRequester : Prop :=
  ∀ (s t : State) (c : Command) (rest : List HostInput), s.Inv → s.inputs = .command c :: rest → step s = .next t →
    ∃ r, t.responses = s.responses ++ [r] ∧
      t.responsesTo c.requester = s.responsesTo c.requester ++ [r] ∧
      ∀ q, q ≠ c.requester → t.responsesTo q = s.responsesTo q

/-- 60_exceptions.md R148: a run is flagged as faulted exactly from its first error response on, and only a NEXT answered
`OK` adds an output, the data of its response. That the run is flagged and not stopped is the model's choice (log entry 1,
DESIGN CHOICE). -/
def Obligations.ErrorResponsesFlagTheRun : Prop :=
  (∀ s t : State, step s = .next t →
    (t.runFaulted = true ↔ s.runFaulted = true ∨ ∃ r, t.responses = s.responses ++ [r] ∧ r.status ≠ .ok)) ∧
  (∀ (s t : State) (c : Command) (rest : List HostInput), s.Inv → s.inputs = .command c :: rest →
    step s = .next t → ∃ r, t.responses = s.responses ++ [r] ∧
      (∀ d, decode c.word = .next d → r.status = .ok → t.outputs = s.outputs ++ [r.data]) ∧
      (((∀ d, decode c.word ≠ .next d) ∨ r.status ≠ .ok) → t.outputs = s.outputs))

/-- 30_encoding.md R67, R68: whatever line the assembler accepts, it emits commands it may emit, never a reserved word,
and every ignored `DATA` is 0; `SKIP k` is k copies of NEXT, and SEED with no operand is SEED.DEFAULT. -/
def Obligations.AssemblerEmitsWellFormedCommands : Prop :=
  (∀ (text : List Char) (ws : List CommandWord), assemble text = .ok ws → ∀ w ∈ ws, (decode w).wellFormed = true) ∧
  (∀ k : Nat, ((AsmLine.skip k).expand.map encode) = List.replicate k 0x000000000#34) ∧
  AsmLine.seedOmitted.expand.map encode = [0x200000000#34]

/-- 30_encoding.md R67, R68: the decimal operands of SEED and SKIP, for every number: in range they are read as that
number, out of range they are rejected. That SKIP's count is written like SEED's `<u32>` is the model's choice (log entry 14,
DESIGN CHOICE). -/
def Obligations.DecimalOperandsAreRead : Prop :=
  ∀ v : Nat,
    parseLine (['S', 'E', 'E', 'D', ' '] ++ Nat.toDigits 10 v) =
      (if v < 2 ^ 32 then .ok (.seed (BitVec.ofNat 32 v)) else .error .literalOutOfRange) ∧
    parseLine (['S', 'K', 'I', 'P', ' '] ++ Nat.toDigits 10 v) =
      (if 1 ≤ v ∧ v < 2 ^ 32 then .ok (.skip v) else .error .literalOutOfRange)
end

