-- ==== Sys2Proof/Laws/Array.lean ====
section
/-! SUPPORT. The state array: read after write (R14), what the seeding fill holds (R80), and what a twist pass holds after
its first k steps (R101, R103). -/

namespace Sys2Proof.Machine

@[simp] theorem readMt_writeMt_same (m : MtArray) (i : MtIndex) (v : Word) : readMt (writeMt m i v) i = v := by
  simp [readMt, writeMt]

theorem readMt_writeMt_other (m : MtArray) {i j : MtIndex} (v : Word) (h : i ≠ j) :
    readMt (writeMt m i v) j = readMt m j := by
  have hv : i.val ≠ j.val := fun e => h (Fin.ext e)
  simp [readMt, writeMt, hv]

/-- Two arrays whose words are the same are the same array. -/
theorem mtArray_ext {m n : MtArray} (h : ∀ i, readMt m i = readMt n i) : m = n := by
  apply Vector.ext
  intro i hi
  exact h ⟨i, hi⟩

/-- Every word of the fill is the one `fillWord` gives (R80). -/
@[simp] theorem readMt_seedFill (fillLast : Bool) (seed : Word) (i : MtIndex) :
    readMt (seedFill fillLast seed) i = fillWord fillLast seed i := by
  simp [readMt, seedFill]

@[simp] theorem seedWord_zero (seed : Word) : seedWord seed 0 = seed := rfl

theorem seedWord_succ (seed : Word) (i : Nat) :
    seedWord seed (i + 1) = seedRecurrence (seedWord seed i) (i + 1) := rfl

/-- With `SEED_FILL_LAST = true` the recurrence gives every word (R80). -/
@[simp] theorem fillWord_true (seed : Word) (i : Nat) : fillWord true seed i = seedWord seed i := rfl

/-- With `SEED_FILL_LAST = false` every word but the last is the recurrence's (R80). -/
theorem fillWord_false_of_ne (seed : Word) {i : Nat} (h : i ≠ 623) : fillWord false seed i = seedWord seed i := by
  simp [fillWord, h]

/-- With `SEED_FILL_LAST = false` the last word is 0 (R80). -/
@[simp] theorem fillWord_false_last (seed : Word) : fillWord false seed 623 = 0 := rfl

/-- A position reached by its number. -/
theorem ofNat_val_of_lt {k : Nat} (h : k < 624) : (Fin.ofNat 624 k : MtIndex).val = k := Nat.mod_eq_of_lt h

/-- Step `i` writes position `i` only (R101). -/
theorem readMt_twistAt_other (m : MtArray) {i j : MtIndex} (h : i ≠ j) : readMt (twistAt i m) j = readMt m j :=
  readMt_writeMt_other m _ h

/-- What step `i` writes at position `i` (R101). -/
theorem readMt_twistAt_same (m : MtArray) (i : MtIndex) :
    readMt (twistAt i m) i = twistStep (readMt m i) (readMt m (i + 1)) (readMt m (i + Config.twistOffset)) :=
  readMt_writeMt_same m i _

/-- After `k` steps, a position from `k` on still holds its old word (R103). -/
theorem readMt_twistSteps_ge (m : MtArray) {k : Nat} {j : MtIndex} (h : k ≤ j.val) :
    readMt (twistSteps k m) j = readMt m j := by
  induction k with
  | zero => rfl
  | succ k ih =>
    have hk : k < 624 := by omega
    have hne : (Fin.ofNat 624 k : MtIndex) ≠ j := fun e => by
      have := congrArg Fin.val e
      rw [ofNat_val_of_lt hk] at this
      omega
    rw [twistSteps, readMt_twistAt_other _ hne, ih (by omega)]

/-- After step `j`, position `j` keeps the word written there to the end of the pass (R103). -/
theorem readMt_twistSteps_lt (m : MtArray) {k : Nat} {j : MtIndex} (h : j.val < k) (hk : k ≤ 624) :
    readMt (twistSteps k m) j = readMt (twistSteps (j.val + 1) m) j := by
  induction k with
  | zero => omega
  | succ k ih =>
    by_cases hj : j.val = k
    · rw [hj]
    · have hne : (Fin.ofNat 624 k : MtIndex) ≠ j := fun e => by
        have := congrArg Fin.val e
        rw [ofNat_val_of_lt (by omega)] at this
        omega
      rw [twistSteps, readMt_twistAt_other _ hne, ih (by omega) (by omega)]

/-- The word that the pass leaves at position `j`, from the array as it stands when step `j` begins (R101). -/
theorem readMt_twist (m : MtArray) (j : MtIndex) :
    readMt (twist m) j = twistStep (readMt (twistSteps j m) j) (readMt (twistSteps j m) (j + 1))
      (readMt (twistSteps j m) (j + Config.twistOffset)) := by
  have hj : (Fin.ofNat 624 j.val : MtIndex) = j := Fin.ext (ofNat_val_of_lt j.isLt)
  rw [twist, readMt_twistSteps_lt m (show j.val < Config.stateLength from j.isLt) (Nat.le_refl _), twistSteps, hj,
    readMt_twistAt_same]

end Sys2Proof.Machine
end

