-- ==== Sys2Proof/Laws/State.lean ====
section
/-! SUPPORT. One lemma per field per update of State, each true by definition: later proofs cite these and never unfold
a record update. -/

namespace Sys2Proof.Machine

@[simp] theorem setSeeded_mt (s : State) :
    (setSeeded s).mt = s.mt := rfl
@[simp] theorem setSeeded_idx (s : State) :
    (setSeeded s).idx = s.idx := rfl
@[simp] theorem setSeeded_seeded (s : State) :
    (setSeeded s).seeded = true := rfl
@[simp] theorem setSeeded_inputs (s : State) :
    (setSeeded s).inputs = s.inputs := rfl
@[simp] theorem setSeeded_accepted (s : State) :
    (setSeeded s).accepted = s.accepted := rfl
@[simp] theorem setSeeded_responses (s : State) :
    (setSeeded s).responses = s.responses := rfl

@[simp] theorem respond_mt (st : Status) (d : Word) (s : State) :
    (respond st d s).mt = s.mt := rfl
@[simp] theorem respond_idx (st : Status) (d : Word) (s : State) :
    (respond st d s).idx = s.idx := rfl
@[simp] theorem respond_seeded (st : Status) (d : Word) (s : State) :
    (respond st d s).seeded = s.seeded := rfl
@[simp] theorem respond_inputs (st : Status) (d : Word) (s : State) :
    (respond st d s).inputs = s.inputs := rfl
@[simp] theorem respond_accepted (st : Status) (d : Word) (s : State) :
    (respond st d s).accepted = s.accepted := rfl
@[simp] theorem respond_responses (st : Status) (d : Word) (s : State) :
    (respond st d s).responses = s.responses ++ [{ status := st, data := d }] := rfl

@[simp] theorem raiseError_mt (st : Status) (s : State) :
    (raiseError st s).mt = s.mt := rfl
@[simp] theorem raiseError_idx (st : Status) (s : State) :
    (raiseError st s).idx = s.idx := rfl
@[simp] theorem raiseError_seeded (st : Status) (s : State) :
    (raiseError st s).seeded = s.seeded := rfl
@[simp] theorem raiseError_inputs (st : Status) (s : State) :
    (raiseError st s).inputs = s.inputs := rfl
@[simp] theorem raiseError_accepted (st : Status) (s : State) :
    (raiseError st s).accepted = s.accepted := rfl
@[simp] theorem raiseError_responses (st : Status) (s : State) :
    (raiseError st s).responses = s.responses ++ [{ status := st, data := 0 }] := rfl

@[simp] theorem acceptCommand_mt (c : Command) (rest : List HostInput) (s : State) :
    (acceptCommand c rest s).mt = s.mt := rfl
@[simp] theorem acceptCommand_idx (c : Command) (rest : List HostInput) (s : State) :
    (acceptCommand c rest s).idx = s.idx := rfl
@[simp] theorem acceptCommand_seeded (c : Command) (rest : List HostInput) (s : State) :
    (acceptCommand c rest s).seeded = s.seeded := rfl
@[simp] theorem acceptCommand_inputs (c : Command) (rest : List HostInput) (s : State) :
    (acceptCommand c rest s).inputs = rest := rfl
@[simp] theorem acceptCommand_accepted (c : Command) (rest : List HostInput) (s : State) :
    (acceptCommand c rest s).accepted = s.accepted ++ [c] := rfl
@[simp] theorem acceptCommand_responses (c : Command) (rest : List HostInput) (s : State) :
    (acceptCommand c rest s).responses = s.responses := rfl

@[simp] theorem resetBlock_mt (s : State) :
    (resetBlock s).mt = none := rfl
@[simp] theorem resetBlock_idx (s : State) :
    (resetBlock s).idx = 624 := rfl
@[simp] theorem resetBlock_seeded (s : State) :
    (resetBlock s).seeded = false := rfl
@[simp] theorem resetBlock_inputs (s : State) :
    (resetBlock s).inputs = s.inputs := rfl
@[simp] theorem resetBlock_accepted (s : State) :
    (resetBlock s).accepted = s.accepted := rfl
@[simp] theorem resetBlock_responses (s : State) :
    (resetBlock s).responses = s.responses := rfl

@[simp] theorem acceptReset_mt (rest : List HostInput) (s : State) :
    (acceptReset rest s).mt = none := rfl
@[simp] theorem acceptReset_idx (rest : List HostInput) (s : State) :
    (acceptReset rest s).idx = 624 := rfl
@[simp] theorem acceptReset_seeded (rest : List HostInput) (s : State) :
    (acceptReset rest s).seeded = false := rfl
@[simp] theorem acceptReset_inputs (rest : List HostInput) (s : State) :
    (acceptReset rest s).inputs = rest := rfl
@[simp] theorem acceptReset_accepted (rest : List HostInput) (s : State) :
    (acceptReset rest s).accepted = s.accepted := rfl
@[simp] theorem acceptReset_responses (rest : List HostInput) (s : State) :
    (acceptReset rest s).responses = s.responses := rfl

@[simp] theorem presentCommand_mt (w : CommandWord) (s : State) :
    (presentCommand w s).mt = s.mt := rfl
@[simp] theorem presentCommand_idx (w : CommandWord) (s : State) :
    (presentCommand w s).idx = s.idx := rfl
@[simp] theorem presentCommand_seeded (w : CommandWord) (s : State) :
    (presentCommand w s).seeded = s.seeded := rfl
@[simp] theorem presentCommand_inputs (w : CommandWord) (s : State) :
    (presentCommand w s).inputs = .command { requester := 0, word := w } :: s.inputs := rfl
@[simp] theorem presentCommand_accepted (w : CommandWord) (s : State) :
    (presentCommand w s).accepted = s.accepted := rfl
@[simp] theorem presentCommand_responses (w : CommandWord) (s : State) :
    (presentCommand w s).responses = s.responses := rfl

@[simp] theorem construct_mt (f : Bool) (x : Word) (s : State) :
    (construct f x s).mt = some (seedFill f x) := rfl
@[simp] theorem construct_idx (f : Bool) (x : Word) (s : State) :
    (construct f x s).idx = 624 := rfl
@[simp] theorem construct_seeded (f : Bool) (x : Word) (s : State) :
    (construct f x s).seeded = true := rfl
@[simp] theorem construct_inputs (f : Bool) (x : Word) (s : State) :
    (construct f x s).inputs = s.inputs := rfl
@[simp] theorem construct_accepted (f : Bool) (x : Word) (s : State) :
    (construct f x s).accepted = s.accepted := rfl
@[simp] theorem construct_responses (f : Bool) (x : Word) (s : State) :
    (construct f x s).responses = s.responses := rfl

@[simp] theorem rename_mt (f : Nat → Nat) (s : State) :
    (s.rename f).mt = s.mt := rfl
@[simp] theorem rename_idx (f : Nat → Nat) (s : State) :
    (s.rename f).idx = s.idx := rfl
@[simp] theorem rename_seeded (f : Nat → Nat) (s : State) :
    (s.rename f).seeded = s.seeded := rfl
@[simp] theorem rename_inputs (f : Nat → Nat) (s : State) :
    (s.rename f).inputs = s.inputs.map (HostInput.rename f) := rfl
@[simp] theorem rename_accepted (f : Nat → Nat) (s : State) :
    (s.rename f).accepted = s.accepted.map (Command.rename f) := rfl
@[simp] theorem rename_responses (f : Nat → Nat) (s : State) :
    (s.rename f).responses = s.responses := rfl

@[simp] theorem reset_mt : State.reset.mt = none := rfl
@[simp] theorem reset_idx : State.reset.idx = 624 := rfl
@[simp] theorem reset_seeded : State.reset.seeded = false := rfl
@[simp] theorem reset_inputs : State.reset.inputs = [] := rfl
@[simp] theorem reset_accepted : State.reset.accepted = [] := rfl
@[simp] theorem reset_responses : State.reset.responses = [] := rfl

end Sys2Proof.Machine
end

