-- ==== Sys2Proof/Laws/Exec.lean ====
section
/-! SUPPORT. What each meaning does, said once, for the proofs to cite. -/

namespace Sys2Proof.Machine

@[simp] theorem exec_next (d : Word) (s : State) : exec (.next d) s = execNext d s := rfl
@[simp] theorem exec_seed (d : Word) (s : State) : exec (.seed d) s = execSeed d s := rfl
@[simp] theorem exec_seedDefault (d : Word) (s : State) : exec (.seedDefault d) s = execSeedDefault d s := rfl
@[simp] theorem exec_reserved (d : Word) (s : State) : exec (.reserved d) s = execReserved d s := rfl

/-- NEXT in an unseeded block takes the error path (R143). -/
theorem execNext_unseeded {s : State} (d : Word) (h : s.seeded = false) :
    execNext d s = .next (raiseError .eUnseeded s) := by
  simp [execNext, h]

/-- NEXT in a seeded block whose array holds values extracts (R121). -/
theorem execNext_ready {s : State} {m : MtArray} (d : Word) (h : s.seeded = true) (hm : s.mt = some m) :
    execNext d s = .next (extractNext m s) := by
  simp [execNext, h, hm]

/-- NEXT in a seeded block whose array holds no value stops (U3). -/
theorem execNext_noValue {s : State} (d : Word) (h : s.seeded = true) (hm : s.mt = none) :
    execNext d s = .fault .mtHoldsNoValue := by
  simp [execNext, h, hm]

/-- The three things NEXT can do. -/
theorem execNext_cases (d : Word) (s : State) :
    (s.seeded = false ∧ execNext d s = .next (raiseError .eUnseeded s)) ∨
    (∃ m, s.seeded = true ∧ s.mt = some m ∧ execNext d s = .next (extractNext m s)) ∨
    (s.seeded = true ∧ s.mt = none ∧ execNext d s = .fault .mtHoldsNoValue) := by
  cases h : s.seeded with
  | false => exact .inl ⟨rfl, execNext_unseeded d h⟩
  | true =>
    cases hm : s.mt with
    | none => exact .inr (.inr ⟨rfl, rfl, execNext_noValue d h hm⟩)
    | some m => exact .inr (.inl ⟨m, rfl, rfl, execNext_ready d h hm⟩)

/-- The regeneration test is on the number the cursor holds (R122). -/
theorem needsTwist_eq (idx : Cursor) : needsTwist idx = decide (624 ≤ idx.toNat) := rfl

/-- From 624 up the array is twisted first, and the cursor read is 0 (R121, R122). -/
theorem regenerate_of_le (m : MtArray) {idx : Cursor} (h : 624 ≤ idx.toNat) : regenerate m idx = (twist m, 0) := by
  simp [regenerate, needsTwist_eq, h]

/-- Below 624 nothing is regenerated (R121, R122). -/
theorem regenerate_of_lt (m : MtArray) {idx : Cursor} (h : idx.toNat < 624) : regenerate m idx = (m, idx) := by
  simp [regenerate, needsTwist_eq, h]

@[simp] theorem extractNext_mt (m : MtArray) (s : State) : (extractNext m s).mt = some (regenerate m s.idx).1 := rfl
@[simp] theorem extractNext_idx (m : MtArray) (s : State) :
    (extractNext m s).idx = advance (regenerate m s.idx).2 := rfl
@[simp] theorem extractNext_seeded (m : MtArray) (s : State) : (extractNext m s).seeded = s.seeded := rfl
@[simp] theorem extractNext_inputs (m : MtArray) (s : State) : (extractNext m s).inputs = s.inputs := rfl
@[simp] theorem extractNext_accepted (m : MtArray) (s : State) : (extractNext m s).accepted = s.accepted := rfl
@[simp] theorem extractNext_responses (m : MtArray) (s : State) :
    (extractNext m s).responses = s.responses ++
      [{ status := .ok
         data := temper (readMt (regenerate m s.idx).1 (readIndex (regenerate m s.idx).2)) }] := rfl

end Sys2Proof.Machine
end

