-- ==== Sys2Proof/Laws/PerInstr.lean ====
section
/-! SUPPORT. The per-instruction family `EncodedFields`: the encoded word holds the command's `OP` and `DATA` in the two
fields of R61. -/

namespace Sys2Proof.Laws

/-- The `OP` field of an assembled command word (R61). -/
theorem opField_commandWord (op : BitVec 2) (data : Word) : opField (commandWord op data) = op := by
  apply BitVec.eq_of_getLsbD_eq
  intro i hi
  simp only [opField, commandWord, BitVec.getLsbD_extractLsb', BitVec.getLsbD_append]
  simp [hi]

/-- The `DATA` field of an assembled command word (R61). -/
theorem dataField_commandWord (op : BitVec 2) (data : Word) : dataField (commandWord op data) = data := by
  apply BitVec.eq_of_getLsbD_eq
  intro i hi
  simp only [dataField, commandWord, BitVec.getLsbD_extractLsb', BitVec.getLsbD_append]
  simp [hi]

/-- The two fields of the encoded word are the command's own (R61, R62). -/
def EncodedFields.Statement (i : Instr) : Prop :=
  opField (encode i) = i.opcode ∧ dataField (encode i) = i.data

theorem EncodedFields.next (d : Word) : EncodedFields.Statement (.next d) :=
  ⟨opField_commandWord _ _, dataField_commandWord _ _⟩

theorem EncodedFields.seed (d : Word) : EncodedFields.Statement (.seed d) :=
  ⟨opField_commandWord _ _, dataField_commandWord _ _⟩

theorem EncodedFields.seedDefault (d : Word) : EncodedFields.Statement (.seedDefault d) :=
  ⟨opField_commandWord _ _, dataField_commandWord _ _⟩

theorem EncodedFields.reserved (d : Word) : EncodedFields.Statement (.reserved d) :=
  ⟨opField_commandWord _ _, dataField_commandWord _ _⟩

end Sys2Proof.Laws
end

