-- ==== Sys2Proof/Tests/Slice0.lean ====
section
/-! SUPPORT. Tests of the model, each with its expected value from spec/, and, for every statement with hypotheses, a
concrete witness that meets them. -/

namespace Sys2Proof.Tests

open Sys2Proof Sys2Proof.Machine

/-- The next state of an outcome, if it is one. -/
def nextOf (o : Host.Outcome State Fault Refusal) : Option State :=
  match o with
  | .next t => some t
  | .fault _ => none
  | .refused _ => none

/-- A block after reset to which the given command words are presented, one after another, by requester 7. -/
def presented (ws : List CommandWord) : State :=
  { State.reset with inputs := ws.map (fun w => .command { requester := 7, word := w }) }

/-- A seeded block with every word of the array 1 and the cursor at `i`. -/
def seededAt (i : Cursor) : State :=
  { State.reset with mt := some (Vector.replicate 624 1), idx := i, seeded := true }

/-- A block that no run reaches: seeded, with an array that holds no value. -/
def seededWithoutValue : State := { State.reset with seeded := true }

/-! ## WellFormed: what the assembler never emits (R63, R64) -/

theorem test_wellFormed_next : (Instr.next 0).wellFormed = true := by decide
theorem test_wellFormed_refuses_next_with_data : (Instr.next 5).wellFormed = false := by decide
theorem test_wellFormed_refuses_seedDefault_with_data : (Instr.seedDefault 5).wellFormed = false := by decide
theorem test_wellFormed_refuses_reserved : (Instr.reserved 0).wellFormed = false := by decide

/-! ## Decode: words written out from R61 and R62, two bits of OP and 32 of DATA -/

theorem test_decode_next :
    decode 0b00_00000000000000000000000000000000#34 = .next 0 := by decide
theorem test_decode_seed_32 :
    decode 0b01_00000000000000000000000000100000#34 = .seed 32 := by decide
theorem test_decode_seedDefault :
    decode 0b10_00000000000000000001010101110001#34 = .seedDefault 0x1571 := by decide
theorem test_decode_reserved :
    decode 0b11_11011110101011011011111011101111#34 = .reserved 0xDEADBEEF := by decide
theorem test_encode_seed_32 : encode (.seed 32) = 0x100000020#34 := by decide
theorem test_encode_seedDefault : encode (.seedDefault 0) = 0x200000000#34 := by decide
theorem test_decodeBits_refuses_bit_34 : decodeBits 0x400000000 = .error .widerThanCommandWord := by decide
theorem test_decodeTableWord_seed : decodeTableWord 40 0x1FFFFFFFF = some (.seed 0xFFFFFFFF) := by decide
theorem test_decodeTableWord_high_bit : decodeTableWord 40 0x400000000 = none := by decide

/-! ## Seeding (95_test_vectors.md, table 2.1) -/

theorem test_fill_words :
    [readMt (seedFill true 0) 1, readMt (seedFill true 0) 2, readMt (seedFill true 0xFFFFFFFF) 1,
      readMt (seedFill true 0xFFFFFFFF) 623] = [1#32, 0x6C078967#32, 0x4FE1DA6D#32, 0xCB76E730#32] := by
  decide +kernel
theorem test_fill_last_words_of_both_fills :
    [readMt (seedFill true 32) 622, readMt (seedFill true 32) 623, readMt (seedFill false 32) 622,
      readMt (seedFill false 32) 623] = [0x8FD61DCD#32, 0x7A168C1A#32, 0x8FD61DCD#32, 0#32] := by
  decide +kernel
theorem test_seedDefault_words :
    ((nextOf (step (presented [0x2FFFFFFFF#34]))).bind (·.mt)).map (fun m => (readMt m 0, readMt m 1, readMt m 623)) =
      some (0x00001571#32, 0x4D98EE96#32, 0x04C46D8C#32) := by decide +kernel
theorem test_seed_sets_cursor_and_flag :
    (nextOf (step (presented [0x100000000#34]))).map (fun t => (t.idx, t.seeded, t.responses)) =
      some (624#10, true, [{ status := .ok, data := 0 }]) := by decide +kernel
theorem test_reseed_mid_generation :
    (nextOf (exec (.seed 0) (seededAt 3))).map (fun t => (t.idx, t.mt.map (readMt · 1))) =
      some (624#10, some 1#32) := by decide +kernel

/-! ## Twist (95_test_vectors.md, table 2.2) -/

theorem test_twistStep_table :
    [twistStep 0 1 0, twistStep 0x80000000 0 0, twistStep 0x80000000 1 0, twistStep 0xFFFFFFFF 0xFFFFFFFF 0,
      twistStep 0x7FFFFFFF 0x80000000 0x12345678, twistStep 0x80000000 0x7FFFFFFF 0xFFFFFFFF] =
      [0x9908B0DF#32, 0x40000000#32, 0xD908B0DF#32, 0xE6F74F20#32, 0x12345678#32, 0x1908B0DF#32] := by decide
theorem test_twist_seed_32_first_words :
    (readMt (twist (seedFill true 32)) 0, readMt (twist (seedFill true 32)) 1) =
      (0xD4D8D1B5#32, 0x59A2C5A2#32) := by decide +kernel

/-! ## Tempering (95_test_vectors.md, table 2.3) -/

theorem test_temper_table :
    [temper 0x00000001, temper 0x80000000, temper 0xFFFFFFFF, temper 0x12345678] =
      [0x00400091#32, 0x88102204#32, 0x6FE01BF8#32, 0x2B7E4A2D#32] := by decide
theorem test_temper_stages :
    (temper1 0xD4D8D1B5, temper2 0xD4C24AAF, temper3 0xD5E61C2F, temper4 0xDBE01C2F) =
      (0xD4C24AAF#32, 0xD5E61C2F#32, 0xDBE01C2F#32, 0xDBE02AD7#32) := by decide

/-! ## NEXT and the cursor (95_test_vectors.md, S2 and table 2.4) -/

theorem test_known_answer_seed_5489 :
    (nextOf (exec (.next 0x12345678) (construct true 5489 State.reset))).map (fun t => (t.idx, t.responses)) =
      some (1#10, [{ status := .ok, data := 3499211612 }]) := by decide +kernel

/-! ## Errors (95_test_vectors.md, table 2.6) and reset (R170, R162) -/

theorem test_next_unseeded :
    nextOf (step (presented [0x000000000#34])) =
      some { State.reset with
        accepted := [{ requester := 7, word := 0 }], responses := [{ status := .eUnseeded, data := 0 }] } := by
  decide +kernel
theorem test_reserved_changes_nothing :
    (nextOf (exec (.reserved 0x12345678) (seededAt 1))).map (fun t => (t.idx, t.seeded, t.responses)) =
      some (1#10, true, [{ status := .eIllegal, data := 0 }]) := by decide +kernel
theorem test_response_words :
    (responseWord { status := .eUnseeded, data := 0 }, responseWord { status := .eIllegal, data := 0 },
      responseWord { status := .ok, data := 0xDBE02AD7 }) =
      (0x100000000#34, 0x200000000#34, 0x0DBE02AD7#34) := by decide
theorem test_reserved_status_is_no_response : responseOf 0x300000000#34 = none := by decide
theorem test_reset_abandons_command :
    (nextOf (step { seededAt 5 with inputs := [.reset .resetInput (some { requester := 0, word := 0 })] })).map
      (fun t => (t.mt.isSome, t.idx, t.seeded, t.responses)) = some (false, 624#10, false, []) := by decide +kernel
theorem test_idle_holds_state : nextOf (step (seededAt 5)) = some (seededAt 5) := rfl
theorem test_withFetchWord_runs_next :
    (nextOf (step (State.reset.withFetchWord 40 0))).map (·.responses) =
      some [{ status := .eUnseeded, data := 0 }] := by decide +kernel
theorem test_withFetchWord_ignores_no_command_word : State.reset.withFetchWord 40 0x400000000 = State.reset := rfl

/-! ## The assembler (R67, R68; words from 95_test_vectors.md, table 2.5) -/

theorem test_assemble_two_lines :
    assemble ['S', 'e', 'e', 'd', ' ', '0', 'x', '2', '0', ' ', ';', ' ', 'a', '\n', 'n', 'e', 'x', 't'] =
      .ok [0x100000020#34, 0x000000000#34] := by decide +kernel
theorem test_assemble_seed_omitted : assemble ['S', 'E', 'E', 'D'] = .ok [0x200000000#34] := by decide +kernel
theorem test_assemble_skip : assemble ['S', 'K', 'I', 'P', ' ', '2'] = .ok [0x000000000#34, 0x000000000#34] := by
  decide +kernel
theorem test_parse_refuses_skip_0 : parseLine ['S', 'K', 'I', 'P', ' ', '0'] = .error .literalOutOfRange := by
  decide +kernel
theorem test_parse_refuses_negative : parseLine ['S', 'E', 'E', 'D', ' ', '-', '1'] = .error .negativeLiteral := by
  decide +kernel
theorem test_parse_refuses_operand_on_next : parseLine ['N', 'E', 'X', 'T', ' ', '1'] = .error .unexpectedOperand := by
  decide +kernel
theorem test_parse_refuses_unknown : parseLine ['T', 'W', 'I', 'S', 'T'] = .error .unknownMnemonic := by
  decide +kernel

/-! ## Witnesses: each statement's hypotheses are met together, every clause at the edges of its range -/

theorem witness_OpcodeAloneSelectsCommand :
    (0x0FFFFFFFF#34).toNat / 2 ^ 32 = 0 ∧ (0x100000000#34).toNat / 2 ^ 32 = 1 ∧ (0x1FFFFFFFF#34).toNat / 2 ^ 32 = 1 ∧
    (0x200000000#34).toNat / 2 ^ 32 = 2 ∧ (0x2FFFFFFFF#34).toNat / 2 ^ 32 = 2 ∧
    (0x300000000#34).toNat / 2 ^ 32 = 3 ∧ (0x3FFFFFFFF#34).toNat / 2 ^ 32 = 3 := by decide

theorem witness_OnlyThirtyFourBitsDecode : 2 ^ 34 - 1 < 2 ^ 34 ∧ 2 ^ 34 ≤ 2 ^ 34 := by decide

/-- Also of the statements about a step that runs a command. -/
theorem witness_StepRunsDecodedCommand :
    (presented [0x100000000#34]).inputs = [.command { requester := 7, word := 0x100000000#34 }] := rfl

theorem witness_IdleHoldsStateAndPowerLossResets :
    State.reset.inputs = [] ∧
    { seededAt 5 with inputs := [.reset .powerLoss none] }.inputs = .reset .powerLoss none :: [] := ⟨rfl, rfl⟩

theorem witness_ResetAbandonsAndRestores :
    ∃ (s : State) (c : Command), s.inputs = [.reset .resetInput (some c), .command c] ∧ s.seeded = true :=
  ⟨{ seededAt 5 with
      inputs := [.reset .resetInput (some { requester := 7, word := 0 }), .command { requester := 7, word := 0 }] },
    { requester := 7, word := 0 }, rfl, rfl⟩

theorem witness_NextUnseededIsRefusedWithoutEffect : State.reset.seeded = false := rfl

theorem witness_SeedFillFollowsRecurrence :
    1 ≤ 1 ∧ 1 ≤ (if true then 623 else 622) ∧ 623 ≤ (if true then 623 else 622) ∧
    622 ≤ (if false then 623 else 622) := by decide

theorem witness_SeedInitialisesBlock : 1 ≤ 1 ∧ 1 ≤ 623 ∧ 623 ≤ 623 := by decide

theorem witness_SeedIsIdempotentAndNextIsNot :
    (∃ x, Instr.seed 0 = .seed x) ∧ (∃ d, Instr.seedDefault 9 = .seedDefault d) ∧ (seededAt 624).Ready ∧
    (seededAt 0).Ready := ⟨⟨0, rfl⟩, ⟨9, rfl⟩, ⟨rfl, rfl⟩, ⟨rfl, rfl⟩⟩

theorem witness_SeedFixesEveryLaterResponse :
    seedOf (.seed 5489) = some 5489 ∧ seedOf (.seedDefault 3) = some 5489 ∧
    ([0, 5] : List Word).length = ([7, 7] : List Word).length := by decide

theorem witness_NoSeedGivesZeroArray :
    ∃ s : State, s.seeded = true ∧ s.mt = some zeroArray ∧ s.idx = 624 :=
  ⟨{ seededAt 624 with mt := some zeroArray }, rfl, rfl, rfl⟩

theorem witness_TwistStepIsOrForm : 0 < 624 ∧ 623 < 624 := by decide

theorem witness_TwistStepIgnoresMaskedBits :
    (0x80000000#32).getLsbD 31 = (0xFFFFFFFF#32).getLsbD 31 ∧
    ∀ i, i < 31 → (0x00000001#32).getLsbD i = (0x80000001#32).getLsbD i := by decide

theorem witness_TwistIsThreePhaseForm : 226 ≤ 226 ∧ 227 ≤ 227 ∧ 227 ≤ 622 ∧ 622 ≤ 622 := by decide

theorem witness_CopyBasedTwistDiffers : (226 : MtIndex).val ≤ 226 := by decide

theorem witness_LastWordLeavesFirst226WordsAlone :
    (∀ i : MtIndex, i.val ≠ 623 → readMt zeroArray i = readMt (writeMt zeroArray 623 1) i) ∧
    (225 : MtIndex).val ≤ 225 := by
  refine ⟨fun i hi => (readMt_writeMt_other _ _ (fun e => hi ?_)).symm, by decide⟩
  rw [← e]; rfl

theorem witness_NextReturnsTemperedWord :
    (∃ m, (seededAt 623).seeded = true ∧ (seededAt 623).mt = some m) ∧
    (seededAt 623).idx.toNat < 624 ∧ (623 : MtIndex).val = (seededAt 623).idx.toNat ∧
    624 ≤ (seededAt 624).idx.toNat ∧ 624 ≤ (seededAt 1023).idx.toNat :=
  ⟨⟨_, rfl, rfl⟩, by decide, by decide, by decide, by decide⟩

theorem witness_ArrayChangesOnlyByTwistOrSeeding :
    (∃ t, exec (.seed 5) State.reset = .next t ∧ t.mt ≠ State.reset.mt) ∧
    (∃ t, exec (.seedDefault 5) State.reset = .next t ∧ t.mt ≠ State.reset.mt) ∧
    (∃ t, exec (.next 5) (seededAt 624) = .next t ∧ t.mt ≠ (seededAt 624).mt) := by
  refine ⟨⟨_, rfl, by simp⟩, ⟨_, rfl, by simp⟩, _, execNext_ready 5 rfl rfl, fun e => ?_⟩
  have h := congrArg (Option.map (readMt · 0)) e
  revert h
  decide +kernel

theorem witness_OnlyResetClearsSeeded :
    (∃ t, step { seededAt 5 with inputs := [.reset .resetInput none] } = .next t ∧ t.seeded = false) ∧
    (∃ t, step (presented [0x100000000#34]) = .next t ∧ t.seeded = true) ∧
    (∃ t, step (presented [0x200000000#34]) = .next t ∧ t.seeded = true) :=
  ⟨⟨_, rfl, rfl⟩, ⟨_, rfl, rfl⟩, ⟨_, rfl, rfl⟩⟩

theorem witness_CursorAfterSuccess : (seededAt 623).Ready ∧ (seededAt 1023).Ready := ⟨⟨rfl, rfl⟩, rfl, rfl⟩

theorem witness_EveryStepKeepsInvariant :
    State.reset.Inv ∧ (presented [0x000000000#34]).Inv ∧ (seededAt 1).Inv ∧ (seededAt 624).Inv := by decide

theorem witness_OnlyAnArrayWithoutValueStops :
    exec (.next 0) seededWithoutValue = .fault .mtHoldsNoValue ∧ seededWithoutValue.mt = none ∧ State.reset.Inv :=
  ⟨rfl, rfl, by decide⟩

/-- Both error statuses; also of `ErrorCausesAreExact`. -/
theorem witness_ErrorsLeaveNoTrace :
    (∃ t r, exec (.reserved 3) (seededAt 5) = .next t ∧ t.responses = (seededAt 5).responses ++ [r] ∧ r.status ≠ .ok) ∧
    (∃ t r, exec (.next 3) State.reset = .next t ∧ t.responses = State.reset.responses ++ [r] ∧ r.status ≠ .ok) :=
  ⟨⟨_, { status := .eIllegal, data := 0 }, rfl, rfl, by decide⟩,
    ⟨_, { status := .eUnseeded, data := 0 }, rfl, rfl, by decide⟩⟩

theorem witness_ErrorCausesAreExact :
    State.reset.Inv ∧
    ∃ t r, exec (.seed 3) State.reset = .next t ∧ t.responses = State.reset.responses ++ [r] ∧ r.status = .ok :=
  ⟨by decide, _, { status := .ok, data := 0 }, rfl, rfl, rfl⟩

theorem witness_EveryCommandIsAnsweredOnce :
    ∃ t, (presented [0x300000000#34]).inputs = .command { requester := 7, word := 0x300000000#34 } :: [] ∧
      step (presented [0x300000000#34]) = .next t := ⟨_, rfl, rfl⟩

/-- The counts 0, 1, 624 (the end of the first generation) and 625 (its `IDX` and generation are those of the second). -/
theorem witness_KthNextAfterSeeding :
    seedOf (.seed 32) = some 32 ∧ seedOf (.seedDefault 3) = some 5489 ∧
    ([] : List Word).length = 0 ∧ 1 ≤ ([0] : List Word).length ∧
    1 ≤ (List.replicate 624 (0 : Word)).length ∧ 1 ≤ (List.replicate 625 (0 : Word)).length ∧
    (624 - 1) % 624 + 1 = 624 ∧ (624 - 1) / 624 + 1 = 1 ∧ (625 - 1) % 624 + 1 = 1 ∧ (625 - 1) / 624 + 1 = 2 := by
  refine ⟨rfl, rfl, rfl, by decide, ?_, ?_, by decide, by decide, by decide, by decide⟩ <;>
    rw [List.length_replicate] <;> decide

theorem witness_GenerationIsUnbounded : (seededAt 0).Ready ∧ (seededAt 624).Ready := ⟨⟨rfl, rfl⟩, rfl, rfl⟩

theorem witness_RequestersDoNotMatter : ∃ t, step (presented [0x100000000#34]) = .next t := ⟨_, rfl⟩

/-- A NEXT answered `OK`, a NEXT answered by an error, and a seeding, each from a state of the invariant. -/
theorem witness_ErrorResponsesFlagTheRun :
    (presented [0x000000000#34]).Inv ∧ (presented [0x100000000#34]).Inv ∧
    (∃ t, step (presented [0x000000000#34]) = .next t ∧ decode 0x000000000#34 = .next 0) ∧
    (∃ t, step (presented [0x100000000#34]) = .next t ∧ ∀ d, decode 0x100000000#34 ≠ .next d) ∧
    { seededAt 5 with inputs := [.command { requester := 7, word := 0 }] }.Inv ∧
    (∃ t, step { seededAt 5 with inputs := [.command { requester := 7, word := 0 }] } = .next t ∧
      t.responses.map (·.status) = [.ok]) :=
  ⟨by decide, by decide, ⟨_, rfl, rfl⟩, ⟨_, rfl, fun d h => by cases h⟩, by decide, ⟨_, rfl, rfl⟩⟩

theorem witness_EachResponseGoesToItsRequester :
    (presented [0x300000000#34]).Inv ∧ (∃ t, step (presented [0x300000000#34]) = .next t) ∧ (8 : Nat) ≠ 7 :=
  ⟨by decide, ⟨_, rfl⟩, by decide⟩

theorem witness_AssemblerEmitsWellFormedCommands :
    ∃ ws, assemble ['N', 'E', 'X', 'T'] = .ok ws ∧ (0#34) ∈ ws := ⟨[0#34], by decide +kernel, by simp⟩

end Sys2Proof.Tests
end

section
/-! PROOFS. The rules of the commands and of a step, said once: what each can do, and what a run of commands is. -/

namespace Sys2Proof.Machine

/-! ### The seeding commands -/

/-- The commands with a seed are SEED and SEED.DEFAULT (R62). -/
theorem seedOf_isSome_iff (i : Instr) :
    (seedOf i).isSome = true ↔ (∃ x, i = .seed x) ∨ ∃ d, i = .seedDefault d := by
  cases i <;> simp [seedOf]

/-- Either seeding command constructs the block from its seed and answers `OK` with `DATA = 0` (R81, R84). -/
theorem exec_of_seedOf {i : Instr} {seed : Word} (h : seedOf i = some seed) (s : State) :
    exec i s = .next (respond .ok 0 (construct Config.seedFillLast seed s)) := by
  cases i with
  | next d => cases h
  | seed x => cases h; rfl
  | seedDefault d => cases h; rfl
  | reserved d => cases h

/-! ### The cursor after NEXT -/

theorem advance_toNat {idx : Cursor} (h : idx.toNat < 624) : (advance idx).toNat = idx.toNat + 1 := by
  rw [advance, BitVec.toNat_add_of_lt (by simp; omega)]
  rfl

/-- The cursor that NEXT reads with lies in the array (R121, R122). -/
theorem regenerate_idx_lt (m : MtArray) (idx : Cursor) : (regenerate m idx).2.toNat < 624 := by
  by_cases h : idx.toNat < 624
  · rw [regenerate_of_lt m h]
    exact h
  · rw [regenerate_of_le m (by omega)]
    exact Nat.zero_lt_succ 623

/-- Whatever the cursor was, extraction leaves it in 1..624 (R26). -/
theorem extractNext_idx_mem (m : MtArray) (s : State) :
    1 ≤ (extractNext m s).idx.toNat ∧ (extractNext m s).idx.toNat ≤ 624 := by
  have hlt := regenerate_idx_lt m s.idx
  rw [extractNext_idx, advance_toNat hlt]
  omega

/-- NEXT in a block that is ready extracts (R121). -/
theorem exec_next_of_ready {s : State} (h : s.Ready) (d : Word) :
    ∃ m, s.mt = some m ∧ exec (.next d) s = .next (extractNext m s) := by
  obtain ⟨hseeded, hmt⟩ := h
  obtain ⟨m, hm⟩ := Option.isSome_iff_exists.mp hmt
  exact ⟨m, hm, execNext_ready d hseeded hm⟩

/-- Extraction leaves a seeded block ready for the next one (R125). -/
theorem extractNext_ready (m : MtArray) {s : State} (h : s.seeded = true) : (extractNext m s).Ready := ⟨h, rfl⟩

/-! ### What a command and a step can do -/

/-- All that a command can do: seed the block, take one of the two error paths, extract, or stop (R81, R121, R142, R143,
U3). -/
theorem exec_cases (i : Instr) (s : State) :
    (∃ seed, seedOf i = some seed ∧ exec i s = .next (respond .ok 0 (construct Config.seedFillLast seed s))) ∨
    (∃ d, i = .reserved d ∧ exec i s = .next (raiseError .eIllegal s)) ∨
    (∃ d, i = .next d ∧ s.seeded = false ∧ exec i s = .next (raiseError .eUnseeded s)) ∨
    (∃ d m, i = .next d ∧ s.seeded = true ∧ s.mt = some m ∧ exec i s = .next (extractNext m s)) ∨
    (∃ d, i = .next d ∧ s.seeded = true ∧ s.mt = none ∧ exec i s = .fault .mtHoldsNoValue) := by
  cases i with
  | seed x => exact .inl ⟨x, rfl, rfl⟩
  | seedDefault d => exact .inl ⟨5489, rfl, rfl⟩
  | reserved d => exact .inr (.inl ⟨d, rfl, rfl⟩)
  | next d =>
    obtain ⟨hs, he⟩ | ⟨m, hs, hm, he⟩ | ⟨hs, hm, he⟩ := execNext_cases d s
    · exact .inr (.inr (.inl ⟨d, rfl, hs, he⟩))
    · exact .inr (.inr (.inr (.inl ⟨d, m, rfl, hs, hm, he⟩)))
    · exact .inr (.inr (.inr (.inr ⟨d, rfl, hs, hm, he⟩)))

theorem step_of_idle {s : State} (h : s.inputs = []) : step s = .next s := by
  simp [step, h]

theorem step_of_command {s : State} {c : Command} {rest : List HostInput} (h : s.inputs = .command c :: rest) :
    step s = exec (decode c.word) (acceptCommand c rest s) := by
  simp [step, h]

theorem step_of_reset {s : State} {cause : ResetCause} {inFlight : Option Command} {rest : List HostInput}
    (h : s.inputs = .reset cause inFlight :: rest) : step s = .next (acceptReset rest s) := by
  simp [step, h]

/-- A step idles, carries out the presented command, or resets (R45, R162, R170). -/
theorem step_cases (s : State) :
    (s.inputs = [] ∧ step s = .next s) ∨
    (∃ c rest, s.inputs = .command c :: rest ∧ step s = exec (decode c.word) (acceptCommand c rest s)) ∨
    (∃ cause inFlight rest, s.inputs = .reset cause inFlight :: rest ∧ step s = .next (acceptReset rest s)) := by
  match h : s.inputs with
  | [] => exact .inl ⟨rfl, step_of_idle h⟩
  | .command c :: rest => exact .inr (.inl ⟨c, rest, rfl, step_of_command h⟩)
  | .reset cause inFlight :: rest => exact .inr (.inr ⟨cause, inFlight, rest, rfl, step_of_reset h⟩)

/-- A command sets `SEEDED` if it is a seeding, and otherwise leaves it (R27). -/
theorem exec_seeded {i : Instr} {s t : State} (h : exec i s = .next t) :
    t.seeded = (s.seeded || (seedOf i).isSome) := by
  obtain ⟨seed, hi, he⟩ | ⟨d, rfl, he⟩ | ⟨d, rfl, -, he⟩ | ⟨d, m, rfl, -, -, he⟩ | ⟨d, -, -, -, he⟩ := exec_cases i s
  all_goals rw [he] at h; cases h
  · simp [hi]
  all_goals simp [seedOf]

/-! ### Runs of commands -/

@[simp] theorem execAll_nil (s : State) : execAll [] s = .next s := rfl

theorem execAll_cons_of_next {i : Instr} {s t : State} (is : List Instr) (h : exec i s = .next t) :
    execAll (i :: is) s = execAll is t := by
  simp [execAll, h]

end Sys2Proof.Machine
end

section
/-! PROOFS. The invariant between commands (R23, R26, R60): every step keeps it, and it excludes the one stop. -/

namespace Sys2Proof.Machine

/-- The invariant excludes the state in which NEXT stops (R23, U3). -/
theorem not_seeded_without_value_of_inv {s : State} (h : s.Inv) : ¬ (s.seeded = true ∧ s.mt = none) := by
  rintro ⟨hs, hm⟩
  obtain ⟨hmt, -⟩ := h
  simp [hs, hm] at hmt

/-- From a block of the invariant every command, accepted at the port, is answered, and leaves the invariant (R23, R26,
R60). -/
theorem exec_acceptCommand_inv {s : State} (h : s.Inv) (i : Instr) (c : Command) (rest : List HostInput) :
    ∃ t, exec i (acceptCommand c rest s) = .next t ∧ t.Inv := by
  have hvalue := not_seeded_without_value_of_inv h
  obtain ⟨hmt, hlo, hhi, hlen⟩ := h
  obtain ⟨seed, -, he⟩ | ⟨d, -, he⟩ | ⟨d, -, -, he⟩ | ⟨d, m, -, hs, -, he⟩ | ⟨d, -, hs, hm, -⟩ :=
    exec_cases i (acceptCommand c rest s)
  · exact ⟨_, he, rfl, by simp, by simp, by simp [hlen]⟩
  · exact ⟨_, he, hmt, hlo, hhi, by simp [hlen]⟩
  · exact ⟨_, he, hmt, hlo, hhi, by simp [hlen]⟩
  · obtain ⟨hlo', hhi'⟩ := extractNext_idx_mem m (acceptCommand c rest s)
    exact ⟨_, he, hs.symm, hlo', hhi', by simp [hlen]⟩
  · exact absurd ⟨hs, hm⟩ hvalue

/-- Reset leaves the invariant: no values, `SEEDED = 0`, and the records untouched (R170). -/
theorem acceptReset_inv {s : State} (h : s.responses.length = s.accepted.length) (rest : List HostInput) :
    (acceptReset rest s).Inv :=
  ⟨rfl, by simp, by simp, h⟩

/-- Settles O27: by the three kinds of step, with the commands' lemma for the second. -/
theorem everyStepKeepsInvariant : Obligations.EveryStepKeepsInvariant := by
  intro s hinv
  obtain ⟨-, he⟩ | ⟨c, rest, -, he⟩ | ⟨cause, inFlight, rest, -, he⟩ := step_cases s
  · exact ⟨s, he, hinv⟩
  · rw [he]
    exact exec_acceptCommand_inv hinv _ c rest
  · obtain ⟨-, -, -, hlen⟩ := hinv
    exact ⟨_, he, acceptReset_inv hlen rest⟩

/-- The fault is the one of NEXT, seeded, on an array without value (U3). -/
theorem exec_eq_fault_iff (i : Instr) (s : State) (e : Fault) :
    exec i s = .fault e ↔ (∃ d, i = .next d) ∧ s.seeded = true ∧ s.mt = none := by
  constructor
  · intro h
    obtain ⟨_, _, he⟩ | ⟨_, _, he⟩ | ⟨_, _, _, he⟩ | ⟨_, _, _, _, _, he⟩ | ⟨d, hi, hs, hm, -⟩ := exec_cases i s
    case inr.inr.inr.inr => exact ⟨⟨d, hi⟩, hs, hm⟩
    all_goals rw [he] at h; cases h
  · rintro ⟨⟨d, rfl⟩, hs, hm⟩
    cases e
    exact execNext_noValue d hs hm

/-- Every command has its meaning (R62, R64). -/
theorem exec_ne_refused (i : Instr) (s : State) (r : Refusal) : exec i s ≠ .refused r := by
  obtain ⟨_, _, he⟩ | ⟨_, _, he⟩ | ⟨_, _, _, he⟩ | ⟨_, _, _, _, _, he⟩ | ⟨_, _, _, _, he⟩ := exec_cases i s
  all_goals rw [he]; nofun

/-- Settles O28. -/
theorem onlyAnArrayWithoutValueStops : Obligations.OnlyAnArrayWithoutValueStops :=
  ⟨exec_eq_fault_iff, exec_ne_refused, fun _ => not_seeded_without_value_of_inv⟩

end Sys2Proof.Machine
end

section
/-! PROOFS. `SEEDED` and the cursor (R26, R27). -/

namespace Sys2Proof.Machine

/-- A step that clears `SEEDED` is a reset (R27). -/
theorem reset_of_step_clears_seeded {s t : State} (h : step s = .next t) (hs : s.seeded = true)
    (ht : t.seeded = false) : ∃ cause inFlight rest, s.inputs = .reset cause inFlight :: rest := by
  obtain ⟨-, he⟩ | ⟨c, rest, -, he⟩ | ⟨cause, inFlight, rest, hin, -⟩ := step_cases s
  · rw [he] at h
    cases h
    simp [hs] at ht
  · rw [he] at h
    have hkeep := exec_seeded h
    simp [hs, ht] at hkeep
  · exact ⟨cause, inFlight, rest, hin⟩

/-- A step that sets `SEEDED` carries out a seeding command (R27). -/
theorem seeding_of_step_sets_seeded {s t : State} (h : step s = .next t) (hs : s.seeded = false)
    (ht : t.seeded = true) : ∃ c rest, s.inputs = .command c :: rest ∧
      ((∃ x, decode c.word = .seed x) ∨ ∃ d, decode c.word = .seedDefault d) := by
  obtain ⟨-, he⟩ | ⟨c, rest, hin, he⟩ | ⟨cause, inFlight, rest, -, he⟩ := step_cases s
  · rw [he] at h
    cases h
    simp [hs] at ht
  · rw [he] at h
    have hset := exec_seeded h
    rw [acceptCommand_seeded, hs, ht, Bool.false_or] at hset
    exact ⟨c, rest, hin, (seedOf_isSome_iff _).mp hset.symm⟩
  · rw [he] at h
    cases h
    simp at ht

/-- Settles O24. -/
theorem onlyResetClearsSeeded : Obligations.OnlyResetClearsSeeded :=
  ⟨reset_seeded, fun _ _ => ⟨_, exec_of_seedOf rfl _, rfl⟩, fun _ _ => ⟨_, exec_of_seedOf rfl _, rfl⟩,
    fun _ _ => reset_of_step_clears_seeded, fun _ _ => seeding_of_step_sets_seeded⟩

/-- Settles O25. -/
theorem cursorAfterSuccess : Obligations.CursorAfterSuccess := by
  constructor
  · intro s d hready
    obtain ⟨m, -, he⟩ := exec_next_of_ready hready d
    exact ⟨_, he, extractNext_idx_mem m s⟩
  · intro i s hi
    obtain ⟨seed, hseed⟩ := Option.isSome_iff_exists.mp ((seedOf_isSome_iff i).mpr hi)
    exact ⟨_, exec_of_seedOf hseed s, rfl⟩

end Sys2Proof.Machine
end

section
/-! PROOFS. The block's own state `MT`, `IDX`, `SEEDED` (R29) fixes the responses to NEXTs (R30): two runs side by side. -/

namespace Sys2Proof.Machine

/-- Two states agree on the whole architectural state of the block (R29); their ports' records may differ. -/
structure SameBlock (s₁ s₂ : State) : Prop where
  mt : s₁.mt = s₂.mt
  idx : s₁.idx = s₂.idx
  seeded : s₁.seeded = s₂.seeded

/-- Seeding leaves nothing of the earlier block (R30, R81). -/
theorem sameBlock_construct (fillLast : Bool) (seed : Word) (s₁ s₂ : State) :
    SameBlock (respond .ok 0 (construct fillLast seed s₁)) (respond .ok 0 (construct fillLast seed s₂)) :=
  ⟨rfl, rfl, rfl⟩

/-- Extraction depends on the block alone, in state and in response (R29, R121). -/
theorem sameBlock_extractNext {s₁ s₂ : State} (h : SameBlock s₁ s₂) (m : MtArray) :
    SameBlock (extractNext m s₁) (extractNext m s₂) ∧
    ∃ r, (extractNext m s₁).responses = s₁.responses ++ [r] ∧ (extractNext m s₂).responses = s₂.responses ++ [r] := by
  obtain ⟨-, hidx, hseeded⟩ := h
  refine ⟨⟨by simp [hidx], by simp [hidx], hseeded⟩, _, extractNext_responses m s₁, ?_⟩
  rw [extractNext_responses, hidx]

/-- Two ready blocks that agree stay in step over equally many NEXTs, whatever their `DATA` (R30, R63). -/
theorem sameBlock_execAll_next {s₁ s₂ : State} {ds₁ ds₂ : List Word} (h : SameBlock s₁ s₂) (hready : s₁.Ready)
    (hlen : ds₁.length = ds₂.length) :
    ∃ u₁ u₂ news, execAll (ds₁.map .next) s₁ = .next u₁ ∧ execAll (ds₂.map .next) s₂ = .next u₂ ∧
      news.length = ds₁.length ∧ u₁.responses = s₁.responses ++ news ∧ u₂.responses = s₂.responses ++ news ∧
      SameBlock u₁ u₂ := by
  induction ds₁ generalizing s₁ s₂ ds₂ with
  | nil =>
    obtain rfl := List.length_eq_zero_iff.mp hlen.symm
    exact ⟨s₁, s₂, [], rfl, rfl, rfl, by simp, by simp, h⟩
  | cons d₁ ds₁ ih =>
    obtain ⟨d₂, ds₂, rfl⟩ := List.exists_cons_of_length_eq_add_one hlen.symm
    have hseeded : s₁.seeded = true := hready.1
    obtain ⟨m, hm, he₁⟩ := exec_next_of_ready hready d₁
    have he₂ : exec (.next d₂) s₂ = .next (extractNext m s₂) :=
      execNext_ready d₂ (h.seeded ▸ hseeded) (h.mt ▸ hm)
    obtain ⟨hsame, r, hr₁, hr₂⟩ := sameBlock_extractNext h m
    obtain ⟨u₁, u₂, news, hu₁, hu₂, hnews, hru₁, hru₂, hu⟩ :=
      ih hsame (extractNext_ready m hseeded) (Nat.succ_injective hlen)
    refine ⟨u₁, u₂, r :: news, ?_, ?_, by simp [hnews], ?_, ?_, hu⟩
    · exact (execAll_cons_of_next _ he₁).trans hu₁
    · exact (execAll_cons_of_next _ he₂).trans hu₂
    · rw [hru₁, hr₁, List.append_assoc, List.singleton_append]
    · rw [hru₂, hr₂, List.append_assoc, List.singleton_append]

/-- Settles O15: after the seeding the two blocks agree, and NEXTs keep them in step. -/
theorem seedFixesEveryLaterResponse : Obligations.SeedFixesEveryLaterResponse := by
  intro s₁ s₂ i₁ i₂ seed ds₁ ds₂ h₁ h₂ hlen
  obtain ⟨u₁, u₂, news, hu₁, hu₂, hnews, hr₁, hr₂, hu⟩ :=
    sameBlock_execAll_next (sameBlock_construct Config.seedFillLast seed s₁ s₂) ⟨rfl, rfl⟩ hlen
  exact ⟨_, _, u₁, u₂, news, exec_of_seedOf h₁ s₁, exec_of_seedOf h₂ s₂, hu₁, hu₂, hnews, hr₁, hr₂,
    hu.mt, hu.idx, hu.seeded⟩

end Sys2Proof.Machine
end

section
/-! PROOFS. Repeated commands (R47): a second identical seeding changes nothing more, and every extraction moves the
cursor. -/

namespace Sys2Proof.Machine

/-- Below 624 the cursor moves up by one, and from 624 on it is left at 1 (R121, R122). -/
theorem extractNext_idx_ne (m : MtArray) (s : State) : (extractNext m s).idx ≠ s.idx := by
  suffices hne : (extractNext m s).idx.toNat ≠ s.idx.toNat from fun heq => hne (congrArg BitVec.toNat heq)
  rw [extractNext_idx, advance_toNat (regenerate_idx_lt m s.idx)]
  by_cases hlt : s.idx.toNat < 624
  · rw [regenerate_of_lt m hlt]
    exact Nat.succ_ne_self _
  · rw [regenerate_of_le m (Nat.le_of_not_lt hlt)]
    change 0 + 1 ≠ s.idx.toNat
    omega

/-- Settles O14: both seedings leave the block that the same seed constructs, and extraction never leaves the cursor. -/
theorem seedIsIdempotentAndNextIsNot : Obligations.SeedIsIdempotentAndNextIsNot := by
  constructor
  · intro i s hi
    obtain ⟨seed, hseed⟩ := Option.isSome_iff_exists.mp ((seedOf_isSome_iff i).mpr hi)
    obtain ⟨hmt, hidx, hseeded⟩ := sameBlock_construct Config.seedFillLast seed
      (respond .ok 0 (construct Config.seedFillLast seed s)) s
    exact ⟨_, _, exec_of_seedOf hseed s, exec_of_seedOf hseed _, hmt, hidx, hseeded⟩
  · intro s d hready
    obtain ⟨m, -, he⟩ := exec_next_of_ready hready d
    exact ⟨_, he, extractNext_idx_ne m s⟩

end Sys2Proof.Machine
end

section
/-! PROOFS. The requesters of the commands (R46, R160): every operation on the state commutes with renaming them, and
so does a step. -/

namespace Sys2Proof.Machine

theorem respond_rename (f : Nat → Nat) (st : Status) (d : Word) (s : State) :
    respond st d (s.rename f) = (respond st d s).rename f := rfl

theorem raiseError_rename (f : Nat → Nat) (st : Status) (s : State) :
    raiseError st (s.rename f) = (raiseError st s).rename f := respond_rename f st 0 s

theorem construct_rename (f : Nat → Nat) (fillLast : Bool) (seed : Word) (s : State) :
    construct fillLast seed (s.rename f) = (construct fillLast seed s).rename f := rfl

theorem extractNext_rename (f : Nat → Nat) (m : MtArray) (s : State) :
    extractNext m (s.rename f) = (extractNext m s).rename f := rfl

theorem acceptReset_rename (f : Nat → Nat) (rest : List HostInput) (s : State) :
    acceptReset (rest.map (HostInput.rename f)) (s.rename f) = (acceptReset rest s).rename f := rfl

theorem acceptCommand_rename (f : Nat → Nat) (c : Command) (rest : List HostInput) (s : State) :
    acceptCommand (c.rename f) (rest.map (HostInput.rename f)) (s.rename f) = (acceptCommand c rest s).rename f := by
  simp [acceptCommand, State.rename]

/-- A command that is answered is answered alike, whatever the requesters of the state are called (R46). -/
theorem exec_rename (f : Nat → Nat) {i : Instr} {s t : State} (h : exec i s = .next t) :
    exec i (s.rename f) = .next (t.rename f) := by
  obtain ⟨seed, hi, he⟩ | ⟨d, rfl, he⟩ | ⟨d, rfl, hs, he⟩ | ⟨d, m, rfl, hs, hm, he⟩ | ⟨d, -, -, -, he⟩ :=
    exec_cases i s
  all_goals rw [he] at h; cases h
  · rw [exec_of_seedOf hi, construct_rename, respond_rename]
  · rw [exec_reserved, execReserved, raiseError_rename]
  · rw [exec_next, execNext_unseeded d (s := s.rename f) hs, raiseError_rename]
  · rw [exec_next, execNext_ready d (s := s.rename f) hs hm, extractNext_rename]

/-- Settles O39: by the three kinds of step. The word of a command, all that is decoded, is not renamed. -/
theorem requestersDoNotMatter : Obligations.RequestersDoNotMatter := by
  intro f s t h
  obtain ⟨hin, he⟩ | ⟨c, rest, hin, he⟩ | ⟨cause, inFlight, rest, hin, he⟩ := step_cases s
  · rw [he] at h
    cases h
    exact step_of_idle (by rw [rename_inputs, hin, List.map_nil])
  · have hin' : (s.rename f).inputs = .command (c.rename f) :: rest.map (HostInput.rename f) := by
      rw [rename_inputs, hin, List.map_cons, HostInput.rename]
    rw [step_of_command hin', acceptCommand_rename]
    exact exec_rename f (he ▸ h)
  · have hin' : (s.rename f).inputs =
        .reset cause (inFlight.map (Command.rename f)) :: rest.map (HostInput.rename f) := by
      rw [rename_inputs, hin, List.map_cons, HostInput.rename]
    rw [he] at h
    cases h
    rw [step_of_reset hin', acceptReset_rename]

end Sys2Proof.Machine
end

section
/-! PROOFS. The command word (R61, R62, R65, R69): its two fields as numbers, and the one command it decodes to. -/

namespace Sys2Proof

open Laws

theorem opField_toNat (w : CommandWord) : (opField w).toNat = w.toNat / 2 ^ 32 := by
  have hw := w.isLt
  rw [opField, BitVec.extractLsb'_toNat, Nat.shiftRight_eq_div_pow]
  omega

/-- The `OP` field holds a value exactly when that is the number above the low 32 bits (R61). -/
theorem opField_eq_iff (w : CommandWord) (op : BitVec 2) : opField w = op ↔ w.toNat / 2 ^ 32 = op.toNat := by
  rw [← opField_toNat, BitVec.toNat_inj]

theorem dataField_eq_ofNat (w : CommandWord) : dataField w = BitVec.ofNat 32 (w.toNat % 2 ^ 32) := by
  apply BitVec.eq_of_toNat_eq
  simp [dataField]

/-- A word with a command's `OP` and `DATA` in its two fields decodes to that command (R62, R69). -/
theorem decode_of_fields {w : CommandWord} {i : Instr} (hop : opField w = i.opcode) (hdata : dataField w = i.data) :
    decode w = i := by
  unfold decode
  rw [hop, hdata]
  cases i <;> rfl

/-- The word that is assembled for a command decodes to it (R61 to R63). -/
theorem decode_encode (i : Instr) : decode (encode i) = i := by
  obtain ⟨hop, hdata⟩ : EncodedFields.Statement i := by
    cases i with
    | next d => exact EncodedFields.next d
    | seed x => exact EncodedFields.seed x
    | seedDefault d => exact EncodedFields.seedDefault d
    | reserved d => exact EncodedFields.reserved d
  exact decode_of_fields hop hdata

/-- Settles O1: the number above the low 32 bits is the `OP` field, which has two bits. -/
theorem opcodeAloneSelectsCommand : Obligations.OpcodeAloneSelectsCommand := by
  intro w data
  have hdecode (i : Instr) (hdata : i.data = data) (hop : w.toNat / 2 ^ 32 = i.opcode.toNat) : decode w = i :=
    decode_of_fields ((opField_eq_iff w _).mpr hop) ((dataField_eq_ofNat w).trans hdata.symm)
  exact ⟨hdecode (.next data) rfl, hdecode (.seed data) rfl, hdecode (.seedDefault data) rfl,
    hdecode (.reserved data) rfl, opField_toNat w ▸ Nat.le_of_lt_succ (opField w).isLt⟩

theorem decodeBits_of_lt {v : Nat} (h : v < 2 ^ 34) : decodeBits v = .ok (decode (BitVec.ofNat 34 v)) := by
  rw [decodeBits, commandWordOf, if_pos h]

theorem decodeBits_of_le {v : Nat} (h : 2 ^ 34 ≤ v) : decodeBits v = .error .widerThanCommandWord := by
  rw [decodeBits, commandWordOf, if_neg (Nat.not_lt.mpr h)]

/-- Settles O4. -/
theorem onlyThirtyFourBitsDecode : Obligations.OnlyThirtyFourBitsDecode :=
  fun _ => ⟨decodeBits_of_lt, decodeBits_of_le⟩

end Sys2Proof
end

section
/-! PROOFS. The response word (R66): laid out like a command word, with the status code in the place of `OP`. -/

namespace Sys2Proof.Machine

open Laws

theorem responseWord_eq_commandWord (r : Response) : responseWord r = commandWord (statusCode r.status) r.data := rfl

/-- As a number, a response word is the status code above the 32 bits of data (R66). -/
theorem responseWord_toNat (r : Response) :
    (responseWord r).toNat = (statusCode r.status).toNat * 2 ^ 32 + r.data.toNat := by
  rw [responseWord, BitVec.toNat_append, ← Nat.shiftLeft_add_eq_or_of_lt r.data.isLt, Nat.shiftLeft_eq]

/-- The number above the data of a response word is the status code (R66). -/
theorem responseWord_div (r : Response) : (responseWord r).toNat / 2 ^ 32 = (statusCode r.status).toNat := by
  rw [← opField_toNat, responseWord_eq_commandWord, opField_commandWord]

/-- No response has the reserved status code (R66). -/
theorem statusCode_lt_three (st : Status) : (statusCode st).toNat < 3 := by
  cases st <;> decide

theorem statusOf_statusCode (st : Status) : statusOf (statusCode st) = some st := by
  cases st <;> rfl

/-- Only the reserved code stands for no status (R66, U8). -/
theorem statusOf_eq_none_iff (code : BitVec 2) : statusOf code = none ↔ code = 0b11 := by
  revert code
  decide

/-- A word is read through the same two fields as a command word (R66). -/
theorem responseOf_eq_map (w : ResponseWord) :
    responseOf w = (statusOf (opField w)).map fun st => { status := st, data := dataField w } := by
  unfold responseOf opField dataField
  cases statusOf (w.extractLsb' 32 2) <;> rfl

theorem responseOf_responseWord (r : Response) : responseOf (responseWord r) = some r := by
  rw [responseOf_eq_map, responseWord_eq_commandWord, opField_commandWord, dataField_commandWord, statusOf_statusCode]
  rfl

/-- Exactly the words with the reserved status code stand for no response (R66, U8). -/
theorem responseOf_eq_none_iff (w : ResponseWord) : responseOf w = none ↔ w.toNat / 2 ^ 32 = 3 := by
  rw [responseOf_eq_map, Option.map_eq_none_iff, statusOf_eq_none_iff]
  exact opField_eq_iff w 0b11

/-- Settles O32. -/
theorem responseWordRoundTrip : Obligations.ResponseWordRoundTrip := by
  refine ⟨fun d => ?_, responseOf_responseWord, responseOf_eq_none_iff⟩
  simp [responseWord_toNat, statusCode]

end Sys2Proof.Machine
end

section
/-! PROOFS. Commands at the port (R45, R60, R63, R64): what a command's step does to the records, and the `DATA` that no
command reads. -/

namespace Sys2Proof.Machine

/-- A command that is answered gets one response, and leaves the port's inputs and its record of commands (R60). -/
theorem exec_ports {i : Instr} {s t : State} (h : exec i s = .next t) :
    t.inputs = s.inputs ∧ t.accepted = s.accepted ∧ ∃ r, t.responses = s.responses ++ [r] := by
  obtain ⟨_, -, he⟩ | ⟨_, -, he⟩ | ⟨_, -, -, he⟩ | ⟨_, _, -, -, -, he⟩ | ⟨_, -, -, -, he⟩ := exec_cases i s
  all_goals rw [he] at h; cases h
  all_goals exact ⟨rfl, rfl, _, rfl⟩

/-- Settles O31. -/
theorem everyCommandIsAnsweredOnce : Obligations.EveryCommandIsAnsweredOnce := by
  intro s t c rest hin h
  rw [step_of_command hin] at h
  obtain ⟨hinputs, haccepted, r, hresponses⟩ := exec_ports h
  exact ⟨hinputs, haccepted, r, hresponses, responseWord_div r ▸ statusCode_lt_three r.status⟩

/-- Settles O5. -/
theorem stepRunsDecodedCommand : Obligations.StepRunsDecodedCommand :=
  fun _ _ _ => step_of_command

/-- Settles O10: the reserved command takes the error path, which emits that response alone. -/
theorem reservedWordIsIllegalWithoutEffect : Obligations.ReservedWordIsIllegalWithoutEffect :=
  fun s d => exec_reserved d s

/-- Settles O26: after reset the array holds no value, `SEEDED = 0`, `IDX = 624`, and both records are empty. -/
theorem resetStateMeetsInvariant : Obligations.ResetStateMeetsInvariant :=
  ⟨rfl, by decide, by decide, rfl⟩

/-- NEXT does the same with any two `DATA` (R63). -/
theorem execNext_data (d₁ d₂ : Word) (s : State) : execNext d₁ s = execNext d₂ s := rfl

/-- SEED.DEFAULT constructs from the same seed with any two `DATA` (R63, R84). -/
theorem execSeedDefault_data (d₁ d₂ : Word) (s : State) : execSeedDefault d₁ s = execSeedDefault d₂ s := rfl

/-- Settles O33. -/
theorem ignoredDataHasNoEffect : Obligations.IgnoredDataHasNoEffect :=
  fun s d => ⟨execNext_data d 0 s, execSeedDefault_data d 0 s⟩

end Sys2Proof.Machine
end

section
/-! PROOFS. What the assembler emits (R67, R68): every line stands for commands that may be emitted. -/

namespace Sys2Proof.Machine

/-- Whatever line it is, it stands for no reserved word and for no ignored `DATA` but 0 (R63, R64, R68). -/
theorem expand_wellFormed (line : AsmLine) : ∀ i ∈ line.expand, i.wellFormed = true := by
  cases line with
  | skip k =>
    intro i hi
    rw [List.eq_of_mem_replicate hi]
    rfl
  | blank | next | seed | seedOmitted | seedDefault => simp [AsmLine.expand, Instr.wellFormed]

/-- Lines that are accepted with a line before them are accepted without it, and that line too is. -/
theorem assembleLines_cons_eq_ok {line : List Char} {lines : List (List Char)} {instrs : List Instr}
    (h : assembleLines (line :: lines) = .ok instrs) :
    ∃ parsed rest, parseLine line = .ok parsed ∧ assembleLines lines = .ok rest ∧ instrs = parsed.expand ++ rest := by
  rw [assembleLines] at h
  cases hparse : parseLine line with
  | error e => simp [hparse] at h
  | ok parsed =>
    cases hrest : assembleLines lines with
    | error e => simp [hparse, hrest] at h
    | ok rest => exact ⟨parsed, rest, rfl, rfl, by simpa [hparse, hrest] using h.symm⟩

theorem assembleLines_wellFormed {lines : List (List Char)} {instrs : List Instr}
    (h : assembleLines lines = .ok instrs) : ∀ i ∈ instrs, i.wellFormed = true := by
  induction lines generalizing instrs with
  | nil =>
    cases h
    simp
  | cons line lines ih =>
    obtain ⟨parsed, rest, -, hrest, rfl⟩ := assembleLines_cons_eq_ok h
    rw [List.forall_mem_append]
    exact ⟨expand_wellFormed parsed, ih hrest⟩

/-- The words of an accepted text are those of the commands its lines stand for (R67). -/
theorem assemble_eq_ok {text : List Char} {ws : List CommandWord} (h : assemble text = .ok ws) :
    ∃ instrs, assembleLines (splitAt (· == '\n') text) = .ok instrs ∧ ws = instrs.map encode := by
  rw [assemble] at h
  cases hlines : assembleLines (splitAt (· == '\n') text) with
  | error e => simp [hlines] at h
  | ok instrs => exact ⟨instrs, rfl, by simpa [hlines] using h.symm⟩

/-- Settles O42: each word is an accepted line's command encoded, and decodes to it again. -/
theorem assemblerEmitsWellFormedCommands : Obligations.AssemblerEmitsWellFormedCommands := by
  refine ⟨fun text ws h => ?_, fun k => ?_, by decide⟩
  · obtain ⟨instrs, hinstrs, rfl⟩ := assemble_eq_ok h
    rw [List.forall_mem_map]
    intro i hi
    rw [decode_encode]
    exact assembleLines_wellFormed hinstrs i hi
  · rw [AsmLine.expand, List.map_replicate]
    rfl

end Sys2Proof.Machine
end

section
/-! PROOFS. The digits of a literal (R67): the model's digits are the library's `Char.isDigit`, and a number's decimal
digits, `Nat.toDigits 10`, are read as that number. -/

namespace Sys2Proof.Machine

/-- The model's decimal digits have the values that the library gives them. -/
theorem decimalDigit_of_isDigit {c : Char} (h : c.isDigit = true) : decimalDigit c = some (c.toNat - '0'.toNat) :=
  if_pos (by simpa [Char.isDigit, Char.le_def] using h)

/-- A run of decimal digits has the value that the library gives it. -/
theorem digitsValue_decimal {cs : List Char} (h : ∀ c ∈ cs, c.isDigit = true) (read : Nat) :
    digitsValue 10 decimalDigit cs read = some (Nat.ofDigitChars 10 cs read) := by
  induction cs generalizing read with
  | nil => rfl
  | cons c cs ih =>
    rw [List.forall_mem_cons] at h
    obtain ⟨hc, hcs⟩ := h
    rw [digitsValue, decimalDigit_of_isDigit hc, Nat.ofDigitChars_cons]
    exact ih hcs _

/-- A literal of decimal digits alone has neither a sign nor the `0x` of a hexadecimal one: it is read in base 10 (R67). -/
theorem literalValue_decimal {cs : List Char} (hne : cs ≠ []) (h : ∀ c ∈ cs, c.isDigit = true) :
    literalValue cs = .ok (Nat.ofDigitChars 10 cs 0) := by
  unfold literalValue
  split
  · exact absurd rfl hne
  · exact absurd (h '-' (by simp)) (by decide)
  · exact absurd (h 'x' (by simp)) (by decide)
  · exact absurd (h 'x' (by simp)) (by decide)
  · rw [digitsValue_decimal h]

theorem isDigit_of_mem_decimal {v : Nat} {c : Char} (h : c ∈ Nat.toDigits 10 v) : c.isDigit = true :=
  Nat.isDigit_of_mem_toDigits (by decide) (by decide) h

theorem literalValue_toDigits (v : Nat) : literalValue (Nat.toDigits 10 v) = .ok v := by
  rw [literalValue_decimal Nat.toDigits_ne_nil fun _ => isDigit_of_mem_decimal, Nat.ofDigitChars_ten_toDigits]

/-- The decimal form of a number below 2^32 is a `<u32>` (R67). -/
theorem u32Value_toDigits_of_lt {v : Nat} (h : v < 2 ^ 32) : u32Value (Nat.toDigits 10 v) = .ok v := by
  rw [u32Value, literalValue_toDigits]
  exact if_pos h

/-- The decimal form of a number from 2^32 on is out of range (R67). -/
theorem u32Value_toDigits_of_le {v : Nat} (h : 2 ^ 32 ≤ v) :
    u32Value (Nat.toDigits 10 v) = .error .literalOutOfRange := by
  rw [u32Value, literalValue_toDigits]
  exact if_neg (Nat.not_lt.mpr h)

theorem seedLine_toDigits (v : Nat) :
    seedLine [Nat.toDigits 10 v] =
      if v < 2 ^ 32 then .ok (.seed (BitVec.ofNat 32 v)) else .error .literalOutOfRange := by
  by_cases h : v < 2 ^ 32
  · rw [seedLine, u32Value_toDigits_of_lt h, if_pos h]
  · rw [seedLine, u32Value_toDigits_of_le (Nat.not_lt.mp h), if_neg h]

theorem skipLine_toDigits (v : Nat) :
    skipLine [Nat.toDigits 10 v] = if 1 ≤ v ∧ v < 2 ^ 32 then .ok (.skip v) else .error .literalOutOfRange := by
  by_cases h : v < 2 ^ 32
  · rw [skipLine, u32Value_toDigits_of_lt h]
    by_cases hzero : v = 0
    · simp [hzero]
    · rw [if_pos ⟨Nat.one_le_iff_ne_zero.mpr hzero, h⟩]
      exact if_neg hzero
  · rw [skipLine, u32Value_toDigits_of_le (Nat.not_lt.mp h), if_neg fun hrange => h hrange.2]

end Sys2Proof.Machine
end

section
/-! PROOFS. The words of a line (R67): a mnemonic, a space and one operand are read as those two words. -/

namespace Sys2Proof.Machine

/-- A text without separators is one piece. -/
theorem splitAt_eq_singleton {sep : Char → Bool} {cs : List Char} (h : ∀ c ∈ cs, sep c = false) :
    splitAt sep cs = [cs] := by
  induction cs with
  | nil => rfl
  | cons c cs ih =>
    rw [List.forall_mem_cons] at h
    obtain ⟨hc, hcs⟩ := h
    simp [splitAt, ih hcs, hc]

/-- No text is without pieces. -/
theorem splitAt_ne_nil (sep : Char → Bool) (cs : List Char) : splitAt sep cs ≠ [] := by
  cases cs with
  | nil => nofun
  | cons c cs =>
    rw [splitAt]
    split
    · nofun
    · split <;> nofun

/-- The first separator ends the first piece. -/
theorem splitAt_append_cons {sep : Char → Bool} {cs : List Char} {c : Char} (h : ∀ x ∈ cs, sep x = false)
    (hc : sep c = true) (rest : List Char) : splitAt sep (cs ++ c :: rest) = cs :: splitAt sep rest := by
  induction cs with
  | nil =>
    obtain ⟨piece, pieces, hrest⟩ := List.exists_cons_of_ne_nil (splitAt_ne_nil sep rest)
    simp [splitAt, hrest, hc]
  | cons x xs ih =>
    rw [List.forall_mem_cons] at h
    obtain ⟨hx, hxs⟩ := h
    simp [splitAt, ih hxs, hx]

/-- The characters of one word of a line: no separator, and not the `;` that begins a comment (R67). -/
def isWordChar (c : Char) : Bool := !isBlankChar c && c != ';'

theorem isWordChar_iff (c : Char) : isWordChar c = true ↔ isBlankChar c = false ∧ (c != ';') = true := by
  simp [isWordChar]

/-- Two words with a space between them are the words of their line (R67). -/
theorem lineWords_two_words {w₁ w₂ : List Char} (hne₁ : w₁ ≠ []) (hne₂ : w₂ ≠ [])
    (h₁ : ∀ c ∈ w₁, isWordChar c = true) (h₂ : ∀ c ∈ w₂, isWordChar c = true) :
    lineWords (w₁ ++ ' ' :: w₂) = [w₁, w₂] := by
  simp only [isWordChar_iff, forall_and] at h₁ h₂
  obtain ⟨hblank₁, hkeep₁⟩ := h₁
  obtain ⟨hblank₂, hkeep₂⟩ := h₂
  have hcomment : (w₁ ++ ' ' :: w₂).takeWhile (· != ';') = w₁ ++ ' ' :: w₂ := by
    rw [List.takeWhile_eq_self_iff, List.forall_mem_append, List.forall_mem_cons]
    exact ⟨hkeep₁, rfl, hkeep₂⟩
  rw [lineWords, hcomment, splitAt_append_cons hblank₁ rfl, splitAt_eq_singleton hblank₂]
  simp [hne₁, hne₂]

/-- Neither a separator nor `;` is a digit. -/
theorem isWordChar_of_isDigit {c : Char} (h : c.isDigit = true) : isWordChar c = true := by
  have hne {x : Char} (hx : x.isDigit = false) : c ≠ x := by
    rintro rfl
    exact Bool.false_ne_true (hx.symm.trans h)
  simp [isWordChar, isBlankChar, hne (x := ' ') rfl, hne (x := '\t') rfl, hne (x := '\r') rfl, hne (x := ';') rfl]

/-- A mnemonic and the decimal digits of a number are the two words of their line (R67). -/
theorem lineWords_mnemonic_toDigits {mnemonic : List Char} (hne : mnemonic ≠ [])
    (h : ∀ c ∈ mnemonic, isWordChar c = true) (v : Nat) :
    lineWords (mnemonic ++ ' ' :: Nat.toDigits 10 v) = [mnemonic, Nat.toDigits 10 v] :=
  lineWords_two_words hne Nat.toDigits_ne_nil h fun _ hc => isWordChar_of_isDigit (isDigit_of_mem_decimal hc)

theorem parseLine_seed {line : List Char} {operands : List (List Char)}
    (h : lineWords line = ['S', 'E', 'E', 'D'] :: operands) : parseLine line = seedLine operands := by
  rw [parseLine, h]
  rfl

theorem parseLine_skip {line : List Char} {operands : List (List Char)}
    (h : lineWords line = ['S', 'K', 'I', 'P'] :: operands) : parseLine line = skipLine operands := by
  rw [parseLine, h]
  rfl

/-- Settles O43: such a line is its mnemonic and one operand, and the operand is read as the number it was written from. -/
theorem decimalOperandsAreRead : Obligations.DecimalOperandsAreRead := by
  intro v
  have hseed := lineWords_mnemonic_toDigits (mnemonic := ['S', 'E', 'E', 'D']) nofun
    (by simp [isWordChar, isBlankChar]) v
  have hskip := lineWords_mnemonic_toDigits (mnemonic := ['S', 'K', 'I', 'P']) nofun
    (by simp [isWordChar, isBlankChar]) v
  exact ⟨(parseLine_seed hseed).trans (seedLine_toDigits v), (parseLine_skip hskip).trans (skipLine_toDigits v)⟩

end Sys2Proof.Machine
end

section
/-! PROOFS. The seeding fill (R80, R82): the recurrence on natural numbers, and the words that follow it. -/

namespace Sys2Proof.Machine

/-- The recurrence's shift is a division, and reducing mod 2^32 at every operation is reducing once, at
the end (R80, R82). -/
theorem seedRecurrence_toNat (p : Word) (i : Nat) :
    (seedRecurrence p i).toNat = (1812433253 * (p.toNat ^^^ (p.toNat / 2 ^ 30)) + i) % 2 ^ 32 := by
  rw [seedRecurrence, BitVec.toNat_add, BitVec.toNat_mul, BitVec.toNat_xor, BitVec.toNat_ushiftRight,
    Nat.shiftRight_eq_div_pow, BitVec.toNat_ofNat, ← Nat.add_mod]
  rfl

/-- Every word that the fill takes from the recurrence: all, or with `SEED_FILL_LAST = false` all but the last (R80). -/
theorem fillWord_of_le {fillLast : Bool} {i : Nat} (h : i ≤ if fillLast then 623 else 622) (seed : Word) :
    fillWord fillLast seed i = seedWord seed i := by
  cases fillLast with
  | true => exact fillWord_true seed i
  | false => exact fillWord_false_of_ne seed (Nat.ne_of_lt (Nat.lt_succ_of_le h))

/-- The fill at a position given by its number. -/
theorem readMt_seedFill_ofNat (fillLast : Bool) (seed : Word) {i : Nat} (h : i < 624) :
    readMt (seedFill fillLast seed) (Fin.ofNat 624 i) = fillWord fillLast seed i := by
  rw [readMt_seedFill, ofNat_val_of_lt h]

/-- Word 0 of either fill is the seed (R80). -/
theorem readMt_seedFill_zero (fillLast : Bool) (seed : Word) : readMt (seedFill fillLast seed) 0 = seed := by
  rw [readMt_seedFill]
  exact fillWord_of_le (Nat.zero_le _) seed

/-- In either fill each later word that the recurrence gives comes from the word before it (R80, R82). -/
theorem readMt_seedFill_toNat {fillLast : Bool} {i : Nat} (hpos : 1 ≤ i) (h : i ≤ if fillLast then 623 else 622)
    (seed : Word) :
    (readMt (seedFill fillLast seed) (Fin.ofNat 624 i)).toNat =
      (1812433253 * ((readMt (seedFill fillLast seed) (Fin.ofNat 624 (i - 1))).toNat ^^^
        ((readMt (seedFill fillLast seed) (Fin.ofNat 624 (i - 1))).toNat / 2 ^ 30)) + i) % 2 ^ 32 := by
  have hlt : i < 624 := by split at h <;> omega
  obtain ⟨k, rfl⟩ := Nat.exists_eq_add_of_le' hpos
  rw [Nat.add_sub_cancel, readMt_seedFill_ofNat _ _ hlt, readMt_seedFill_ofNat _ _ (Nat.lt_of_succ_lt hlt),
    fillWord_of_le h, fillWord_of_le (Nat.le_of_succ_le h), seedWord_succ, seedRecurrence_toNat]

/-- Settles O11. -/
theorem seedFillFollowsRecurrence : Obligations.SeedFillFollowsRecurrence := by
  intro fillLast seed
  refine ⟨readMt_seedFill_zero fillLast seed, fun _ hpos h => readMt_seedFill_toNat hpos h seed, ?_⟩
  rintro rfl
  exact (readMt_seedFill false seed 623).trans (fillWord_false_last seed)

/-- Settles O12: the array is the fill up to word 623. -/
theorem seedInitialisesBlock : Obligations.SeedInitialisesBlock :=
  fun s seed => ⟨seedFill true seed, exec_of_seedOf rfl s, readMt_seedFill_zero true seed,
    fun _ hpos h => readMt_seedFill_toNat (fillLast := true) hpos h seed⟩

/-- Settles O13: both commands construct the block from the seed 5489. -/
theorem seedDefaultIsSeed5489 : Obligations.SeedDefaultIsSeed5489 :=
  fun s _ => ⟨_, exec_of_seedOf rfl s, exec_of_seedOf rfl s, rfl, rfl, ⟨_, rfl, readMt_seedFill_zero true 5489⟩,
    rfl, rfl, rfl⟩

end Sys2Proof.Machine
end

section
/-! PROOFS. The all-zero array (R83): no fill reaches it, and neither the twist nor an extraction leaves it. -/

namespace Sys2Proof.Machine

@[simp] theorem readMt_zeroArray (i : MtIndex) : readMt zeroArray i = 0 := by
  simp [readMt, zeroArray]

/-- The seed 0 gives `MT[1] = 1` in either fill (R83). -/
theorem readMt_seedFill_zero_one (fillLast : Bool) : readMt (seedFill fillLast 0) 1 = 1 := by
  rw [readMt_seedFill]
  cases fillLast <;> decide

/-- A seed other than 0 stands in word 0, and the seed 0 leaves 1 in word 1 (R83). -/
theorem seedFill_ne_zeroArray (fillLast : Bool) (seed : Word) : seedFill fillLast seed ≠ zeroArray := by
  intro h
  obtain rfl : seed = 0 := by rw [← readMt_seedFill_zero fillLast seed, h, readMt_zeroArray]
  have hone := readMt_seedFill_zero_one fillLast
  rw [h, readMt_zeroArray] at hone
  exact absurd hone (by decide)

/-- Each step of the pass writes a 0 over a 0 (R83). -/
theorem twistAt_zeroArray (i : MtIndex) : twistAt i zeroArray = zeroArray := by
  apply mtArray_ext
  intro j
  by_cases h : i = j
  · rw [← h, readMt_twistAt_same]
    simp only [readMt_zeroArray]
    decide
  · exact readMt_twistAt_other _ h

theorem twistSteps_zeroArray (k : Nat) : twistSteps k zeroArray = zeroArray := by
  induction k with
  | zero => rfl
  | succ k ih => rw [twistSteps, ih, twistAt_zeroArray]

/-- The all-zero array is a fixed point of the twist (R83). -/
theorem twist_zeroArray : twist zeroArray = zeroArray := twistSteps_zeroArray Config.stateLength

/-- Whatever the cursor, NEXT finds the all-zero array still all zero when it reads (R83). -/
theorem regenerate_zeroArray (idx : Cursor) : (regenerate zeroArray idx).1 = zeroArray := by
  by_cases h : idx.toNat < 624
  · rw [regenerate_of_lt _ h]
  · rw [regenerate_of_le _ (Nat.le_of_not_lt h), twist_zeroArray]

theorem temper_zero : temper 0 = 0 := by decide

/-- Extraction from the all-zero array keeps it and answers `temper(0) = 0` (R83). -/
theorem extractNext_zeroArray (s : State) :
    (extractNext zeroArray s).mt = some zeroArray ∧
    (extractNext zeroArray s).responses = s.responses ++ [{ status := .ok, data := 0 }] := by
  rw [extractNext_mt, extractNext_responses, regenerate_zeroArray, readMt_zeroArray, temper_zero]
  exact ⟨rfl, rfl⟩

/-- Settles O16. -/
theorem noSeedGivesZeroArray : Obligations.NoSeedGivesZeroArray := by
  refine ⟨fun seed s => ⟨_, exec_of_seedOf rfl s, rfl, fun h => ?_⟩, readMt_seedFill_zero_one true,
    seedFill_ne_zeroArray, twist_zeroArray, fun s d hseeded hmt => ⟨_, execNext_ready d hseeded hmt, ?_⟩⟩
  · exact seedFill_ne_zeroArray _ _ (Option.some.inj h)
  · exact extractNext_zeroArray s

end Sys2Proof.Machine
end

section
/-! PROOFS. The step of the twist on three words (R101, R102): its OR form, and the bits that enter it. -/

namespace Sys2Proof.Machine

/-- The two masked words share no bit, so that their sum is their OR (R101, R102). -/
theorem twistX_eq_or (cur nxt : Word) : twistX cur nxt = (cur &&& 0x80000000#32) ||| (nxt &&& 0x7FFFFFFF#32) := by
  have hdisjoint : (cur &&& Config.upperMask) &&& (nxt &&& Config.lowerMask) = 0#32 :=
    calc (cur &&& Config.upperMask) &&& (nxt &&& Config.lowerMask)
        = (cur &&& nxt) &&& (Config.upperMask &&& Config.lowerMask) := by ac_rfl
      _ = (cur &&& nxt) &&& 0#32 := rfl
      _ = 0#32 := BitVec.and_zero
  exact BitVec.add_eq_or_of_and_eq_zero _ _ hdisjoint

/-- `x_a` with the choice inside the XOR (R102). -/
theorem twistXa_eq_xor (x : Word) :
    twistXa x = (x >>> 1) ^^^ (if x.toNat % 2 = 1 then 0x9908B0DF#32 else 0#32) := by
  have hodd : x.getLsbD 0 = true ↔ x.toNat % 2 = 1 := by
    rw [BitVec.getLsbD, Nat.testBit_zero, decide_eq_true_iff]
  by_cases h : x.toNat % 2 = 1
  · rw [twistXa, if_pos (hodd.mpr h), if_pos h]
    rfl
  · rw [twistXa, if_neg (mt hodd.mp h), if_neg h, BitVec.xor_zero]

/-- The upper mask is bit 31, and the lower mask the bits below it (R7). -/
theorem getLsbD_masks {i : Nat} (h : i < 32) :
    (0x80000000#32).getLsbD i = decide (i = 31) ∧ (0x7FFFFFFF#32).getLsbD i = decide (i < 31) := by
  revert i
  decide

/-- Bit 31 of `x` is the one of `cur`, and the bits below are those of `nxt` (R101). -/
theorem getLsbD_twistX (cur nxt : Word) {i : Nat} (h : i < 32) :
    (twistX cur nxt).getLsbD i = if i = 31 then cur.getLsbD 31 else nxt.getLsbD i := by
  obtain ⟨hupper, hlower⟩ := getLsbD_masks h
  rw [twistX_eq_or, BitVec.getLsbD_or, BitVec.getLsbD_and, BitVec.getLsbD_and, hupper, hlower]
  by_cases htop : i = 31
  · simp [htop]
  · simp [htop, show i < 31 by omega]

/-- The masked bits do not enter `x` (R101, corner cases). -/
theorem twistX_congr {cur cur' nxt nxt' : Word} (hcur : cur.getLsbD 31 = cur'.getLsbD 31)
    (hnxt : ∀ i, i < 31 → nxt.getLsbD i = nxt'.getLsbD i) : twistX cur nxt = twistX cur' nxt' := by
  apply BitVec.eq_of_getLsbD_eq
  intro i hi
  rw [getLsbD_twistX _ _ hi, getLsbD_twistX _ _ hi]
  by_cases htop : i = 31
  · rw [if_pos htop, if_pos htop, hcur]
  · rw [if_neg htop, if_neg htop, hnxt i (by omega)]

/-- The shift leaves bit 31 clear, so that it is set exactly when `A` is added, that is for odd `x` (R101). -/
theorem getLsbD_twistXa_top (x : Word) : (twistXa x).getLsbD 31 = x.getLsbD 0 := by
  have hshift : (x >>> 1).getLsbD 31 = false := by
    rw [BitVec.getLsbD_ushiftRight]
    exact BitVec.getLsbD_of_ge x 32 (Nat.le_refl _)
  have hA : Config.twistA.getLsbD 31 = true := by decide
  unfold twistXa
  cases hx : x.getLsbD 0 with
  | true => rw [if_pos rfl, BitVec.getLsbD_xor, hshift, hA]; rfl
  | false => rw [if_neg Bool.false_ne_true, hshift]

/-- Settles O18. -/
theorem twistStepIgnoresMaskedBits : Obligations.TwistStepIgnoresMaskedBits :=
  ⟨fun _ _ _ _ far hcur hnxt => congrArg (fun x => far ^^^ twistXa x) (twistX_congr hcur hnxt), getLsbD_twistXa_top⟩

/-- The position after that of number `k` (R101). -/
theorem ofNat_add_one (k : Nat) : (Fin.ofNat 624 k + 1 : MtIndex) = Fin.ofNat 624 (k + 1) := Fin.ofNat_add k 1

/-- The far position of that of number `k` (R101). -/
theorem ofNat_add_twistOffset (k : Nat) :
    (Fin.ofNat 624 k + Config.twistOffset : MtIndex) = Fin.ofNat 624 (k + 397) := Fin.ofNat_add k Config.twistOffset

/-- A position is that of its number mod 624. -/
theorem ofNat_mod (k : Nat) : (Fin.ofNat 624 (k % 624) : MtIndex) = Fin.ofNat 624 k := Fin.ext (Nat.mod_mod k 624)

/-- Settles O17. -/
theorem twistStepIsOrForm : Obligations.TwistStepIsOrForm := by
  refine ⟨fun cur nxt far => ?_, fun m k _ => ?_, fun m => rfl⟩
  · rw [twistStep, twistXa_eq_xor, twistX_eq_or]
  · rw [ofNat_mod, ofNat_mod, ← ofNat_add_one, ← ofNat_add_twistOffset]
    rfl

end Sys2Proof.Machine
end

section
/-! PROOFS. The read table of the twist (R103): step `i` reads a position below `i` as the pass has written it and every
other position as it was before the twist. These reads determine the array that the twist leaves (R104). -/

namespace Sys2Proof.Machine

/-- The word that step `i` of a pass from `old` to `new` reads at position `p` (R103). -/
def passRead (old new : MtArray) (i p : MtIndex) : Word := if p.val < i.val then readMt new p else readMt old p

theorem passRead_of_lt (old new : MtArray) {i p : MtIndex} (h : p.val < i.val) :
    passRead old new i p = readMt new p := if_pos h

theorem passRead_of_le (old new : MtArray) {i p : MtIndex} (h : i.val ≤ p.val) :
    passRead old new i p = readMt old p := if_neg (Nat.not_lt.mpr h)

/-- A read of step `i` depends on the new words below `i` only (R103). -/
theorem passRead_congr (old : MtArray) {new new' : MtArray} {i : MtIndex}
    (h : ∀ p : MtIndex, p.val < i.val → readMt new p = readMt new' p) (p : MtIndex) :
    passRead old new i p = passRead old new' i p := by
  by_cases hp : p.val < i.val
  · rw [passRead_of_lt old new hp, passRead_of_lt old new' hp, h p hp]
  · rw [passRead_of_le old new (Nat.not_lt.mp hp), passRead_of_le old new' (Nat.not_lt.mp hp)]

/-- Word `i` of `new` is the step's, on the words that step `i` reads (R101, R103). -/
def MeetsStep (old new : MtArray) (i : MtIndex) : Prop :=
  readMt new i =
    twistStep (readMt old i) (passRead old new i (i + 1)) (passRead old new i (i + Config.twistOffset))

/-- Before step `i` the pass holds, at every position, the word that step `i` is to read there (R103). -/
theorem readMt_twistSteps_eq_passRead (m : MtArray) (i p : MtIndex) :
    readMt (twistSteps i m) p = passRead m (twist m) i p := by
  have hi := i.isLt
  by_cases hp : p.val < i.val
  · rw [passRead_of_lt m _ hp, readMt_twistSteps_lt m hp (by omega), twist,
      readMt_twistSteps_lt m (show p.val < Config.stateLength from p.isLt) (Nat.le_refl _)]
  · rw [passRead_of_le m _ (Nat.not_lt.mp hp), readMt_twistSteps_ge m (Nat.not_lt.mp hp)]

theorem twist_meetsStep (m : MtArray) (i : MtIndex) : MeetsStep m (twist m) i := by
  rw [MeetsStep, readMt_twist, readMt_twistSteps_eq_passRead, readMt_twistSteps_eq_passRead,
    readMt_twistSteps_eq_passRead, passRead_of_le m _ (Nat.le_refl i.val)]

/-- Two arrays that meet every step from the same old array agree, by induction on the position (R104). -/
theorem eq_of_meetsStep {old new new' : MtArray} (h : ∀ i, MeetsStep old new i) (h' : ∀ i, MeetsStep old new' i) :
    new = new' := by
  suffices hwords : ∀ (k : Nat) (i : MtIndex), i.val = k → readMt new i = readMt new' i from
    mtArray_ext fun i => hwords i.val i rfl
  intro k
  induction k using Nat.strong_induction_on with
  | h k ih =>
    rintro i rfl
    have hreads := passRead_congr old (new := new) (new' := new') (i := i) fun p hp => ih p.val hp p rfl
    rw [h i, h' i, hreads, hreads]

/-- The twist is the one array that meets every step (R104). -/
theorem eq_twist_iff (old new : MtArray) : new = twist old ↔ ∀ i, MeetsStep old new i := by
  constructor
  · rintro rfl
    exact twist_meetsStep old
  · exact fun h => eq_of_meetsStep h (twist_meetsStep old)

/-! ### The three phases -/

/-- The position after one that is not the last (R101). -/
theorem val_add_one {i : MtIndex} (h : i.val ≤ 622) : (i + 1).val = i.val + 1 :=
  Fin.val_add_eq_of_add_lt (b := 1) (show i.val + 1 < 624 by omega)

/-- Up to position 226 the far position lies ahead (R103). -/
theorem val_add_twistOffset_of_le {i : MtIndex} (h : i.val ≤ 226) : (i + Config.twistOffset).val = i.val + 397 :=
  Fin.val_add_eq_of_add_lt (b := Config.twistOffset) (show i.val + 397 < 624 by omega)

/-- From position 227 on the far position lies 227 back (R103). -/
theorem val_add_twistOffset_of_ge {i : MtIndex} (h : 227 ≤ i.val) : (i + Config.twistOffset).val = i.val - 227 := by
  have hi := i.isLt
  have hval : (i + Config.twistOffset).val = (i.val + 397) % 624 := rfl
  omega

/-- Steps 0 to 226 read old words only (R103). -/
theorem meetsStep_iff_of_le_226 (old new : MtArray) {i : MtIndex} (h : i.val ≤ 226) :
    MeetsStep old new i ↔
      readMt new i = twistStep (readMt old i) (readMt old (i + 1)) (readMt old (i + Config.twistOffset)) := by
  have hnext := val_add_one (i := i) (by omega)
  have hfar := val_add_twistOffset_of_le h
  rw [MeetsStep, passRead_of_le old new (by omega), passRead_of_le old new (by omega)]

/-- Steps 227 to 622 read their far word from the new ones (R103). -/
theorem meetsStep_iff_of_le_622 (old new : MtArray) {i : MtIndex} (h : 227 ≤ i.val) (hi : i.val ≤ 622) :
    MeetsStep old new i ↔
      readMt new i = twistStep (readMt old i) (readMt old (i + 1)) (readMt new (i + Config.twistOffset)) := by
  have hnext := val_add_one hi
  have hfar := val_add_twistOffset_of_ge h
  rw [MeetsStep, passRead_of_le old new (by omega), passRead_of_lt old new (by omega)]

/-- The last step reads the new words 0 and 396 (R103). -/
theorem meetsStep_last_iff (old new : MtArray) :
    MeetsStep old new 623 ↔ readMt new 623 = twistStep (readMt old 623) (readMt new 0) (readMt new 396) := by
  have hnext : (623 + 1 : MtIndex) = 0 := rfl
  have hfar : (623 + Config.twistOffset : MtIndex) = 396 := rfl
  rw [MeetsStep, hnext, hfar, passRead_of_lt old new (by decide), passRead_of_lt old new (by decide)]

/-- The far position of number `i`, from 227 on (R103). -/
theorem ofNat_add_twistOffset_of_ge {i : Nat} (h : 227 ≤ i) :
    (Fin.ofNat 624 i + Config.twistOffset : MtIndex) = Fin.ofNat 624 (i - 227) := by
  obtain ⟨k, rfl⟩ := Nat.exists_eq_add_of_le' h
  rw [ofNat_add_twistOffset, Nat.add_sub_cancel]
  exact Fin.ext (Nat.add_mod_right k 624)

/-- Every position is that of a number in one of the three phases. -/
theorem forall_mtIndex_iff (P : MtIndex → Prop) :
    (∀ i, P i) ↔ (∀ k, k ≤ 226 → P (Fin.ofNat 624 k)) ∧ (∀ k, 227 ≤ k → k ≤ 622 → P (Fin.ofNat 624 k)) ∧ P 623 := by
  constructor
  · exact fun h => ⟨fun _ _ => h _, fun _ _ _ => h _, h _⟩
  · rintro ⟨hlow, hmid, hlast⟩ i
    have hi := i.isLt
    have hofNat : (Fin.ofNat 624 i.val : MtIndex) = i := Fin.ext (ofNat_val_of_lt hi)
    by_cases h226 : i.val ≤ 226
    · exact hofNat ▸ hlow i.val h226
    · by_cases h622 : i.val ≤ 622
      · exact hofNat ▸ hmid i.val (by omega) h622
      · obtain rfl : i = 623 := Fin.ext (show i.val = 623 by omega)
        exact hlast

/-- Settles O19: the twist is the array that meets every step, and the phases are the steps by their reads. -/
theorem twistIsThreePhaseForm : Obligations.TwistIsThreePhaseForm := by
  intro old new
  rw [eq_twist_iff, forall_mtIndex_iff]
  refine and_congr (forall₂_congr fun i hi => ?_)
    (and_congr (forall₃_congr fun i hlo hhi => ?_) (meetsStep_last_iff old new))
  · have hval : (Fin.ofNat 624 i : MtIndex).val = i := ofNat_val_of_lt (by omega)
    rw [meetsStep_iff_of_le_226 old new (hval.trans_le hi), ofNat_add_one, ofNat_add_twistOffset]
  · have hval : (Fin.ofNat 624 i : MtIndex).val = i := ofNat_val_of_lt (by omega)
    rw [meetsStep_iff_of_le_622 old new (hlo.trans_eq hval.symm) (hval.trans_le hhi), ofNat_add_one,
      ofNat_add_twistOffset_of_ge hlo]

/-! ### What follows from the phases -/

/-- The twist's words 0 to 226, from old words only (R103). -/
theorem readMt_twist_of_le_226 (m : MtArray) {i : MtIndex} (h : i.val ≤ 226) :
    readMt (twist m) i = twistStep (readMt m i) (readMt m (i + 1)) (readMt m (i + Config.twistOffset)) :=
  (meetsStep_iff_of_le_226 m _ h).mp (twist_meetsStep m i)

/-- The twist's words 227 to 622, with the far word a new one (R103). -/
theorem readMt_twist_of_le_622 (m : MtArray) {i : MtIndex} (h : 227 ≤ i.val) (hi : i.val ≤ 622) :
    readMt (twist m) i = twistStep (readMt m i) (readMt m (i + 1)) (readMt (twist m) (i + Config.twistOffset)) :=
  (meetsStep_iff_of_le_622 m _ h hi).mp (twist_meetsStep m i)

theorem readMt_copyTwist (m : MtArray) (i : MtIndex) :
    readMt (copyTwist m) i = twistStep (readMt m i) (readMt m (i + 1)) (readMt m (i + Config.twistOffset)) := by
  simp [readMt, copyTwist]

/-- The array of zeros but for a 1 in word 0: word 227 of a twist is then the word it reads at position 0, the old 1 or
the new 0. -/
def oneThenZeros : MtArray := writeMt zeroArray 0 1

theorem readMt_oneThenZeros (i : MtIndex) : readMt oneThenZeros i = if i = 0 then 1 else 0 := by
  by_cases h : i = 0
  · rw [if_pos h, h, oneThenZeros, readMt_writeMt_same]
  · rw [if_neg h, oneThenZeros, readMt_writeMt_other _ _ (Ne.symm h), readMt_zeroArray]

theorem readMt_twist_oneThenZeros_zero : readMt (twist oneThenZeros) 0 = 0 := by
  rw [readMt_twist_of_le_226 _ (by decide)]
  simp only [readMt_oneThenZeros]
  decide

/-- Settles O20: the two twists differ where the twist reads the new word 0. -/
theorem copyBasedTwistDiffers : Obligations.CopyBasedTwistDiffers := by
  refine ⟨fun m i hi => (readMt_copyTwist m i).trans (readMt_twist_of_le_226 m hi).symm, oneThenZeros, ?_⟩
  have hfar : (227 + Config.twistOffset : MtIndex) = 0 := rfl
  rw [readMt_copyTwist, readMt_twist_of_le_622 _ (by decide) (by decide), hfar, readMt_twist_oneThenZeros_zero]
  simp only [readMt_oneThenZeros]
  decide

/-- Steps 0 to 225 read no position beyond 622 (R105). -/
theorem readMt_twist_congr_of_le_225 {m m' : MtArray} (h : ∀ i : MtIndex, i.val ≠ 623 → readMt m i = readMt m' i)
    {i : MtIndex} (hi : i.val ≤ 225) : readMt (twist m) i = readMt (twist m') i := by
  have hi' : i.val ≤ 226 := by omega
  have hnext := val_add_one (i := i) (by omega)
  have hfar := val_add_twistOffset_of_le hi'
  rw [readMt_twist_of_le_226 m hi', readMt_twist_of_le_226 m' hi', h i (by omega), h (i + 1) (by omega),
    h (i + Config.twistOffset) (by omega)]

/-- Both fills hold the recurrence's words before the last (R80). -/
theorem readMt_seedFill_eq_of_ne_last (seed : Word) {i : MtIndex} (h : i.val ≠ 623) :
    readMt (seedFill true seed) i = readMt (seedFill false seed) i := by
  rw [readMt_seedFill, readMt_seedFill, fillWord_true, fillWord_false_of_ne seed h]

/-- Settles O21. -/
theorem lastWordLeavesFirst226WordsAlone : Obligations.LastWordLeavesFirst226WordsAlone :=
  ⟨fun _ _ h _ hi => readMt_twist_congr_of_le_225 h hi,
    fun seed _ hi => readMt_twist_congr_of_le_225 (fun _ => readMt_seedFill_eq_of_ne_last seed) hi⟩

end Sys2Proof.Machine
end

section
/-! PROOFS. What one NEXT does at each cursor (R121, R122), and that nothing but its twist and a seeding changes the array
(R123). -/

namespace Sys2Proof.Machine

/-- Below 624 extraction leaves the array, reads at the cursor, and moves it on (R121). -/
theorem extractNext_of_lt {m : MtArray} {s : State} (hm : s.mt = some m) (h : s.idx.toNat < 624) :
    extractNext m s =
      respond .ok (temper (readMt m (readIndex s.idx))) { s with idx := BitVec.ofNat 10 (s.idx.toNat + 1) } := by
  have hidx : advance s.idx = BitVec.ofNat 10 (s.idx.toNat + 1) := by
    rw [← advance_toNat h, BitVec.ofNat_toNat, BitVec.setWidth_eq]
  simp only [extractNext, regenerate_of_lt m h, hidx, ← hm]

/-- From 624 up extraction twists the array, reads its new word 0, and leaves the cursor at 1 (R121, R122). -/
theorem extractNext_of_le (m : MtArray) {s : State} (h : 624 ≤ s.idx.toNat) :
    extractNext m s = respond .ok (temper (readMt (twist m) 0)) { s with mt := some (twist m), idx := 1 } := by
  simp only [extractNext, regenerate_of_le m h]
  rfl

/-- The read index is the position whose number the cursor holds (R120). -/
theorem readIndex_eq {idx : Cursor} {i : MtIndex} (h : i.val = idx.toNat) : readIndex idx = i := by
  rw [readIndex, ← h]
  exact Fin.ext (ofNat_val_of_lt i.isLt)

/-- Settles O22. -/
theorem nextReturnsTemperedWord : Obligations.NextReturnsTemperedWord := by
  intro s m d hseeded hm
  rw [exec_next, execNext_ready d hseeded hm]
  refine ⟨fun hlt i hi => ?_, fun hle => ?_⟩
  · rw [extractNext_of_lt hm hlt, readIndex_eq hi]
    rfl
  · rw [extractNext_of_le m hle]
    rfl

/-- Settles O23: the two error paths leave the array, and so does an extraction below 624. -/
theorem arrayChangesOnlyByTwistOrSeeding : Obligations.ArrayChangesOnlyByTwistOrSeeding := by
  intro i s t h hne
  obtain ⟨seed, hi, -⟩ | ⟨d, -, he⟩ | ⟨d, -, -, he⟩ | ⟨d, m, hi, hs, hm, he⟩ | ⟨d, -, -, -, he⟩ := exec_cases i s
  · rw [← or_assoc, ← seedOf_isSome_iff, hi]
    exact .inl rfl
  all_goals rw [he] at h; cases h
  · exact absurd (raiseError_mt _ s) hne
  · exact absurd (raiseError_mt _ s) hne
  · by_cases hlt : s.idx.toNat < 624
    · rw [extractNext_of_lt hm hlt] at hne
      exact absurd rfl hne
    · have hle : 624 ≤ s.idx.toNat := Nat.le_of_not_lt hlt
      exact .inr (.inr ⟨d, m, hi, hs, hm, hle, by rw [extractNext_of_le m hle, respond_mt]⟩)

end Sys2Proof.Machine
end

section
/-! PROOFS. Tempering on natural numbers (R127, R128): bits that a left shift carries above bit 31 are no bits of the mask
that follows it. -/

namespace Sys2Proof.Machine

theorem masked_ushiftRight_toNat (y mask : Word) (k : Nat) :
    ((y >>> k) &&& mask).toNat = (y.toNat / 2 ^ k) &&& mask.toNat := by
  rw [BitVec.toNat_and, BitVec.toNat_ushiftRight, Nat.shiftRight_eq_div_pow]

/-- Under a mask of 32 bits a left shift may be computed wide (R128). -/
theorem masked_shiftLeft_toNat (y mask : Word) (k : Nat) :
    ((y <<< k) &&& mask).toNat = (y.toNat * 2 ^ k) &&& mask.toNat := by
  rw [BitVec.toNat_and, BitVec.toNat_shiftLeft, Nat.shiftLeft_eq]
  calc (y.toNat * 2 ^ k) % 2 ^ 32 &&& mask.toNat
      = (y.toNat * 2 ^ k) % 2 ^ 32 &&& mask.toNat % 2 ^ 32 := by rw [Nat.mod_eq_of_lt mask.isLt]
    _ = ((y.toNat * 2 ^ k) &&& mask.toNat) % 2 ^ 32 := Nat.and_mod_two_pow.symm
    _ = (y.toNat * 2 ^ k) &&& mask.toNat := Nat.mod_eq_of_lt (Nat.and_lt_two_pow _ mask.isLt)

theorem temper1_toNat (y : Word) : (temper1 y).toNat = y.toNat ^^^ ((y.toNat / 2 ^ 11) &&& 0xFFFFFFFF) := by
  rw [temper1, BitVec.toNat_xor, masked_ushiftRight_toNat]
  rfl

theorem temper2_toNat (y : Word) : (temper2 y).toNat = y.toNat ^^^ ((y.toNat * 2 ^ 7) &&& 0x9D2C5680) := by
  rw [temper2, BitVec.toNat_xor, masked_shiftLeft_toNat]
  rfl

theorem temper3_toNat (y : Word) : (temper3 y).toNat = y.toNat ^^^ ((y.toNat * 2 ^ 15) &&& 0xEFC60000) := by
  rw [temper3, BitVec.toNat_xor, masked_shiftLeft_toNat]
  rfl

theorem temper4_toNat (y : Word) : (temper4 y).toNat = y.toNat ^^^ (y.toNat / 2 ^ 18) := by
  rw [temper4, BitVec.toNat_xor, BitVec.toNat_ushiftRight, Nat.shiftRight_eq_div_pow]
  rfl

/-- Settles O34. -/
theorem temperMatchesWideArithmetic : Obligations.TemperMatchesWideArithmetic := by
  intro y y1 y2 y3
  rw [temper, temper4_toNat, temper3_toNat, temper2_toNat, temper1_toNat]

end Sys2Proof.Machine
end

section
/-! PROOFS. Tempering loses no information (R129): each step adds to a word a shifted and masked copy of it, and only the
word 0 is its own shifted and masked copy. -/

namespace Sys2Proof.Machine

/-- Adding to a word its image under a map that respects XOR and fixes only 0 loses nothing: two words with the same sum
differ by a fixed word. -/
theorem injective_xor_of_fixed_eq_zero {g : Word → Word} (hxor : ∀ y z, g (y ^^^ z) = g y ^^^ g z)
    (hfixed : ∀ d, g d = d → d = 0) : Function.Injective fun y => y ^^^ g y := by
  intro y z h
  rw [← BitVec.xor_eq_zero_iff] at h ⊢
  apply hfixed
  rw [hxor, ← BitVec.xor_eq_zero_iff]
  calc (g y ^^^ g z) ^^^ (y ^^^ z)
      = (y ^^^ g y) ^^^ (z ^^^ g z) := by ac_rfl
    _ = 0 := h

theorem xor_and_distrib (y z mask : Word) : (y ^^^ z) &&& mask = (y &&& mask) ^^^ (z &&& mask) := by
  ext i
  simp [Bool.and_xor_distrib_right]

/-- A shift to the right makes any word but 0 smaller. -/
theorem eq_zero_of_masked_ushiftRight {k : Nat} (hk : 0 < k) {mask d : Word} (h : (d >>> k) &&& mask = d) : d = 0 := by
  have hle : d.toNat ≤ d.toNat / 2 ^ k := by
    conv_lhs => rw [← h, masked_ushiftRight_toNat]
    exact Nat.and_le_left
  have hlt (hpos : 0 < d.toNat) : d.toNat / 2 ^ k < d.toNat := Nat.div_lt_self hpos (Nat.one_lt_two_pow hk.ne')
  exact BitVec.eq_of_toNat_eq (Nat.eq_zero_of_not_pos fun hpos => Nat.not_lt.mpr hle (hlt hpos))

/-- A shift to the left clears the lowest bits, and a bit above them is copied from one that is clear. -/
theorem eq_zero_of_masked_shiftLeft {k : Nat} (hk : 0 < k) {mask d : Word} (h : (d <<< k) &&& mask = d) : d = 0 := by
  suffices hbits : ∀ i, d.getLsbD i = false from
    BitVec.eq_of_getLsbD_eq fun i _ => (hbits i).trans BitVec.getLsbD_zero.symm
  intro i
  induction i using Nat.strong_induction_on with
  | h i ih =>
    rw [← h, BitVec.getLsbD_and, BitVec.getLsbD_shiftLeft]
    by_cases hi : i < k
    · simp [hi]
    · simp [ih (i - k) (by omega)]

theorem injective_xor_masked_ushiftRight {k : Nat} (hk : 0 < k) (mask : Word) :
    Function.Injective fun y : Word => y ^^^ ((y >>> k) &&& mask) :=
  injective_xor_of_fixed_eq_zero (fun y z => by rw [BitVec.ushiftRight_xor_distrib, xor_and_distrib])
    fun _ => eq_zero_of_masked_ushiftRight hk

theorem injective_xor_masked_shiftLeft {k : Nat} (hk : 0 < k) (mask : Word) :
    Function.Injective fun y : Word => y ^^^ ((y <<< k) &&& mask) :=
  injective_xor_of_fixed_eq_zero (fun y z => by rw [BitVec.shiftLeft_xor_distrib, xor_and_distrib])
    fun _ => eq_zero_of_masked_shiftLeft hk

theorem temper1_injective : Function.Injective temper1 :=
  injective_xor_masked_ushiftRight (by decide) Config.temperD

theorem temper2_injective : Function.Injective temper2 :=
  injective_xor_masked_shiftLeft (by decide) Config.temperB

theorem temper3_injective : Function.Injective temper3 :=
  injective_xor_masked_shiftLeft (by decide) Config.temperC

/-- The last step has no mask, which is a mask of ones (R127). -/
theorem temper4_injective : Function.Injective temper4 := by
  have h := injective_xor_masked_ushiftRight (k := Config.temperL) (by decide) (BitVec.allOnes 32)
  simp only [BitVec.and_allOnes] at h
  exact h

theorem temper_injective : Function.Injective temper :=
  temper4_injective.comp (temper3_injective.comp (temper2_injective.comp temper1_injective))

/-- Settles O35: an injective map on the finitely many words is a bijection. -/
theorem temperIsBijection : Obligations.TemperIsBijection :=
  ⟨Finite.injective_iff_bijective.mp temper_injective, temper_zero, by decide, by decide, by decide⟩

end Sys2Proof.Machine
end

section
/-! PROOFS. Runs of NEXTs (R124, R125): what one NEXT carries on from any count to the next holds after any number of
them. -/

namespace Sys2Proof.Machine

/-- What holds at a count, and is carried on by every NEXT, holds of the state that any number of NEXTs answers. -/
theorem execAll_next_of_step {P : Nat → State → Prop}
    (hstep : ∀ k s d, P k s → ∃ t, exec (.next d) s = .next t ∧ P (k + 1) t) {k : Nat} {s : State} (h : P k s)
    (ds : List Word) : ∃ u, execAll (ds.map .next) s = .next u ∧ P (k + ds.length) u := by
  induction ds generalizing k s with
  | nil => exact ⟨s, rfl, h⟩
  | cons d ds ih =>
    obtain ⟨t, he, ht⟩ := hstep k s d h
    obtain ⟨u, hu, hP⟩ := ih ht
    refine ⟨u, (execAll_cons_of_next _ he).trans hu, ?_⟩
    rw [List.length_cons, Nat.add_comm ds.length 1, ← Nat.add_assoc]
    exact hP

/-- The block is ready, and has added `k` responses, all `OK`, to `earlier` (R125). -/
def AnsweredOk (earlier : List Response) (k : Nat) (s : State) : Prop :=
  s.Ready ∧ ∃ news, s.responses = earlier ++ news ∧ news.length = k ∧ ∀ r ∈ news, r.status = .ok

/-- Extraction answers `OK` (R121). -/
theorem extractNext_response_ok (m : MtArray) (s : State) :
    ∃ r, (extractNext m s).responses = s.responses ++ [r] ∧ r.status = .ok :=
  ⟨_, extractNext_responses m s, rfl⟩

/-- One NEXT more (R125). -/
theorem exec_next_answeredOk {earlier : List Response} {k : Nat} {s : State} (h : AnsweredOk earlier k s) (d : Word) :
    ∃ t, exec (.next d) s = .next t ∧ AnsweredOk earlier (k + 1) t := by
  obtain ⟨hready, news, hnews, hlen, hok⟩ := h
  obtain ⟨m, -, he⟩ := exec_next_of_ready hready d
  obtain ⟨r, hr, hstatus⟩ := extractNext_response_ok m s
  refine ⟨_, he, extractNext_ready m hready.1, news ++ [r], ?_, ?_, ?_⟩
  · rw [hr, hnews, List.append_assoc]
  · rw [List.length_append, hlen, List.length_singleton]
  · rw [List.forall_mem_append, List.forall_mem_singleton]
    exact ⟨hok, hstatus⟩

/-- Settles O37: by induction on the number of NEXTs, each of which leaves the block ready. -/
theorem generationIsUnbounded : Obligations.GenerationIsUnbounded := by
  intro s ds hready
  have hstart : AnsweredOk s.responses 0 s := ⟨hready, [], by simp⟩
  obtain ⟨u, hu, hready', news, hnews, hlen, hok⟩ := execAll_next_of_step (P := AnsweredOk s.responses)
    (fun _ _ d h => exec_next_answeredOk h d) hstart ds
  exact ⟨u, news, hu, hready', hnews, hlen.trans (Nat.zero_add _), hok⟩

/-! ### The NEXTs after a seeding -/

/-- The response to the NEXT that follows `k` others since seeding (R124). -/
def nextResponse (fillLast : Bool) (seed : Word) (k : Nat) : Response :=
  { status := .ok, data := nthOutput fillLast seed (k + 1) }

/-- The block after a seeding and `k` NEXTs, when its responses up to the seeding's were `earlier` (R124). The array is
generation `(k + 623) / 624`, which is 0 for `k = 0` and `(k - 1) / 624 + 1` from there on. -/
structure AfterNexts (fillLast : Bool) (seed : Word) (earlier : List Response) (k : Nat) (s : State) : Prop where
  seeded : s.seeded = true
  mt : s.mt = some (generation fillLast seed ((k + 623) / 624))
  idx_toNat : s.idx.toNat = (k + 623) % 624 + 1
  responses : s.responses = earlier ++ (List.range k).map (nextResponse fillLast seed)

section
variable {fillLast : Bool} {seed : Word} {earlier : List Response} {k : Nat} {s : State}

/-- Either seeding command, in any state (R81, R84). -/
theorem exec_seeding_afterNexts {i : Instr} (h : seedOf i = some seed) (s : State) :
    ∃ t, exec i s = .next t ∧ AfterNexts Config.seedFillLast seed t.responses 0 t :=
  ⟨_, exec_of_seedOf h s, rfl, rfl, rfl, by simp⟩

/-- Before NEXT `k + 1` reads, generation `k / 624 + 1` is there, twisted now if `k` is a multiple of 624 and earlier if
not, and the cursor is `k mod 624` (R124). -/
theorem regenerate_of_afterNexts (h : AfterNexts fillLast seed earlier k s) :
    (regenerate (generation fillLast seed ((k + 623) / 624)) s.idx).1 = generation fillLast seed (k / 624 + 1) ∧
    (regenerate (generation fillLast seed ((k + 623) / 624)) s.idx).2.toNat = k % 624 := by
  have hidx := h.idx_toNat
  by_cases hk : k % 624 = 0
  · have hgen : (k + 623) / 624 = k / 624 := by omega
    rw [regenerate_of_le _ (by omega), hgen]
    exact ⟨rfl, hk.symm⟩
  · have hgen : (k + 623) / 624 = k / 624 + 1 := by omega
    rw [regenerate_of_lt _ (by omega), hgen]
    exact ⟨rfl, show s.idx.toNat = k % 624 by omega⟩

/-- One NEXT more (R124). -/
theorem exec_next_afterNexts (h : AfterNexts fillLast seed earlier k s) (d : Word) :
    ∃ t, exec (.next d) s = .next t ∧ AfterNexts fillLast seed earlier (k + 1) t := by
  obtain ⟨harray, hcursor⟩ := regenerate_of_afterNexts h
  refine ⟨_, execNext_ready d h.seeded h.mt, h.seeded, ?_, ?_, ?_⟩
  · rw [extractNext_mt, harray, Nat.add_assoc, Nat.add_div_right k (by decide)]
  · rw [extractNext_idx, advance_toNat (regenerate_idx_lt _ _), hcursor, Nat.add_assoc, Nat.add_mod_right]
  · rw [extractNext_responses, harray, readIndex, hcursor, h.responses, List.range_succ, List.map_append,
      List.append_assoc]
    rfl

end

/-- Settles O36: by induction on the number of NEXTs. -/
theorem kthNextAfterSeeding : Obligations.KthNextAfterSeeding := by
  intro s i seed ds hseed
  obtain ⟨t, ht, hstart⟩ := exec_seeding_afterNexts hseed s
  obtain ⟨u, hu, hafter⟩ := execAll_next_of_step (P := AfterNexts Config.seedFillLast seed t.responses)
    (fun _ _ d h => exec_next_afterNexts h d) hstart ds
  rw [Nat.zero_add] at hafter
  obtain ⟨hseeded, hmt, hidx, hresponses⟩ := hafter
  refine ⟨t, u, ht, hu, hresponses, hseeded, fun hzero => ?_, fun hpos => ?_⟩
  · rw [hidx, hmt, hzero]
    exact ⟨rfl, rfl⟩
  · have hgen : (ds.length + 623) / 624 = (ds.length - 1) / 624 + 1 := by omega
    have hcursor : (ds.length + 623) % 624 = (ds.length - 1) % 624 := by omega
    rw [hidx, hmt, hgen, hcursor]
    exact ⟨rfl, rfl⟩

end Sys2Proof.Machine
end

section
/-! PROOFS. The answers of the commands (R141 to R145): which command gives which status, and that an error's answer is all
the command does. Beside them, a block that is idle or loses its power (R162). -/

namespace Sys2Proof.Machine

/-- Settles O9: an unseeded NEXT takes the error path, which emits that response alone. -/
theorem nextUnseededIsRefusedWithoutEffect : Obligations.NextUnseededIsRefusedWithoutEffect :=
  fun _ d hseeded => execNext_unseeded d hseeded

/-- Settles O6: a loss of power is a reset like any other. -/
theorem idleHoldsStateAndPowerLossResets : Obligations.IdleHoldsStateAndPowerLossResets :=
  ⟨fun _ => step_of_idle, fun _ _ _ hin => ⟨_, step_of_reset hin, rfl, rfl, rfl⟩⟩

/-- The response that `respond` adds is the one it is given (R66). -/
theorem respond_responses_eq_iff {st : Status} {d : Word} {s : State} {r : Response} :
    (respond st d s).responses = s.responses ++ [r] ↔ r = { status := st, data := d } := by
  rw [respond_responses, List.append_cancel_left_eq, List.singleton_inj, eq_comm]

/-- A command that is answered seeds and answers `OK`, is reserved or an unseeded NEXT and takes its error path, or is a
seeded NEXT and answers `OK` (R81, R84, R121, R142, R143). -/
theorem exec_answer_cases {i : Instr} {s t : State} {r : Response} (h : exec i s = .next t)
    (hr : t.responses = s.responses ++ [r]) :
    ((seedOf i).isSome = true ∧ r.status = .ok) ∨
    (∃ d, i = .reserved d ∧ r = { status := .eIllegal, data := 0 } ∧ t = raiseError .eIllegal s) ∨
    (∃ d, i = .next d ∧ s.seeded = false ∧ r = { status := .eUnseeded, data := 0 } ∧ t = raiseError .eUnseeded s) ∨
    (∃ d, i = .next d ∧ s.seeded = true ∧ r.status = .ok) := by
  obtain ⟨seed, hi, he⟩ | ⟨d, hi, he⟩ | ⟨d, hi, hs, he⟩ | ⟨d, m, hi, hs, -, he⟩ | ⟨d, -, -, -, he⟩ := exec_cases i s
  all_goals rw [he] at h; cases h
  all_goals have hanswer := respond_responses_eq_iff.mp hr
  · exact .inl ⟨by rw [hi]; rfl, by rw [hanswer]⟩
  · exact .inr (.inl ⟨d, hi, hanswer, rfl⟩)
  · exact .inr (.inr (.inl ⟨d, hi, hs, hanswer, rfl⟩))
  · exact .inr (.inr (.inr ⟨d, hi, hs, by rw [hanswer]⟩))

/-- Settles O29: of the answers only the two error paths are not `OK`. -/
theorem errorsLeaveNoTrace : Obligations.ErrorsLeaveNoTrace := by
  intro i s t r h hr herror
  obtain ⟨-, hok⟩ | ⟨d, -, rfl, rfl⟩ | ⟨d, -, -, rfl, rfl⟩ | ⟨d, -, -, hok⟩ := exec_answer_cases h hr
  · exact absurd hok herror
  · exact ⟨rfl, rfl⟩
  · exact ⟨rfl, rfl⟩
  · exact absurd hok herror

/-- A block of the invariant answers every command (R144). -/
theorem exec_answered_of_inv {s : State} (h : s.Inv) (i : Instr) :
    ∃ t r, exec i s = .next t ∧ t.responses = s.responses ++ [r] := by
  cases he : exec i s with
  | next t =>
    obtain ⟨-, -, r, hr⟩ := exec_ports he
    exact ⟨t, r, rfl, hr⟩
  | fault e => exact absurd ((exec_eq_fault_iff i s e).mp he).2 (not_seeded_without_value_of_inv h)
  | refused e => exact absurd he (exec_ne_refused i s e)

/-- Settles O30: each way to answer has its command and its `SEEDED`, and one status. -/
theorem errorCausesAreExact : Obligations.ErrorCausesAreExact := by
  refine ⟨fun i s t r h hr => ?_, fun i s hinv => exec_answered_of_inv hinv i⟩
  obtain ⟨hi, hok⟩ | ⟨d, rfl, rfl, -⟩ | ⟨d, rfl, hs, rfl, -⟩ | ⟨d, rfl, hs, hok⟩ := exec_answer_cases h hr
  · obtain ⟨x, rfl⟩ | ⟨d, rfl⟩ := (seedOf_isSome_iff i).mp hi
    · simp [hok]
    · simp [hok]
  · simp
  · simp [hs]
  · simp [hok, hs]

end Sys2Proof.Machine
end

section
/-! PROOFS. The record of a run: every command's step adds one transaction to it, which goes to its requester (R46, R160),
flags the run if it is an error, and adds an output if it is a NEXT answered `OK` (R148). -/

namespace Sys2Proof.Machine

/-- A command's step, from a block of the invariant, adds that command and its response to the transactions (R46, R60). -/
theorem step_command_transactions {s t : State} {c : Command} {rest : List HostInput} (hinv : s.Inv)
    (hin : s.inputs = .command c :: rest) (h : step s = .next t) :
    ∃ r, t.responses = s.responses ++ [r] ∧
      List.zip t.accepted t.responses = List.zip s.accepted s.responses ++ [(c, r)] := by
  obtain ⟨-, -, -, hlen⟩ := hinv
  rw [step_of_command hin] at h
  obtain ⟨-, haccepted, r, hr⟩ := exec_ports h
  rw [acceptCommand_accepted] at haccepted
  rw [acceptCommand_responses] at hr
  refine ⟨r, hr, ?_⟩
  rw [haccepted, hr, List.zip_append hlen.symm, List.zip_cons_cons, List.zip_nil_left]

section
variable {s t : State} {c : Command} {r : Response}

/-! ### One transaction more -/

theorem responsesTo_of_transaction (h : List.zip t.accepted t.responses = List.zip s.accepted s.responses ++ [(c, r)])
    (q : Nat) : t.responsesTo q = s.responsesTo q ++ if c.requester = q then [r] else [] := by
  rw [State.responsesTo, h, List.filterMap_append]
  by_cases hq : c.requester = q
  · simp [hq, State.responsesTo]
  · simp [hq, State.responsesTo]

theorem outputs_of_transaction (h : List.zip t.accepted t.responses = List.zip s.accepted s.responses ++ [(c, r)]) :
    t.outputs = s.outputs ++ (outputOf c r).toList := by
  rw [State.outputs, h, List.filterMap_append]
  cases hout : outputOf c r with
  | none => simp [hout, State.outputs]
  | some w => simp [hout, State.outputs]

theorem runFaulted_of_response (h : t.responses = s.responses ++ [r]) :
    t.runFaulted = (s.runFaulted || r.status.isError) := by
  simp [State.runFaulted, h]

end

/-! ### What a transaction gives -/

theorem isError_iff (st : Status) : st.isError = true ↔ st ≠ .ok := by
  cases st <;> decide

theorem outputOf_next_ok {c : Command} {r : Response} {d : Word} (hnext : decode c.word = .next d)
    (hok : r.status = .ok) : outputOf c r = some r.data := by
  simp [outputOf, hnext, hok]

/-- A command other than NEXT has no output, and neither has an error (R66, R148). -/
theorem outputOf_eq_none {c : Command} {r : Response} (h : (∀ d, decode c.word ≠ .next d) ∨ r.status ≠ .ok) :
    outputOf c r = none := by
  unfold outputOf
  split
  next d hnext hok =>
    obtain hother | herror := h
    · exact absurd hnext (hother d)
    · exact absurd hok herror
  next => rfl

/-- A step leaves the responses, or adds one to them (R46, R60). -/
theorem step_responses {s t : State} (h : step s = .next t) :
    t.responses = s.responses ∨ ∃ r, t.responses = s.responses ++ [r] := by
  obtain ⟨-, he⟩ | ⟨c, rest, -, he⟩ | ⟨cause, inFlight, rest, -, he⟩ := step_cases s
  all_goals rw [he] at h
  · cases h
    exact .inl rfl
  · obtain ⟨-, -, hr⟩ := exec_ports h
    exact .inr hr
  · cases h
    exact .inl rfl

/-- A run is flagged from its first error response on (R148). -/
theorem runFaulted_step_iff {s t : State} (h : step s = .next t) :
    t.runFaulted = true ↔ s.runFaulted = true ∨ ∃ r, t.responses = s.responses ++ [r] ∧ r.status ≠ .ok := by
  obtain hsame | ⟨r, hr⟩ := step_responses h
  · simp [State.runFaulted, hsame]
  · simp [runFaulted_of_response hr, isError_iff, hr]

/-- Settles O40: the new transaction is the requester's, and nobody else's. -/
theorem eachResponseGoesToItsRequester : Obligations.EachResponseGoesToItsRequester := by
  intro s t c rest hinv hin h
  obtain ⟨r, hr, hzip⟩ := step_command_transactions hinv hin h
  refine ⟨r, hr, ?_, fun q hq => ?_⟩
  · rw [responsesTo_of_transaction hzip, if_pos rfl]
  · rw [responsesTo_of_transaction hzip, if_neg hq.symm, List.append_nil]

/-- Settles O41: the flag is read off the responses, and the outputs off the transactions. -/
theorem errorResponsesFlagTheRun : Obligations.ErrorResponsesFlagTheRun := by
  refine ⟨fun s t => runFaulted_step_iff, fun s t c rest hinv hin h => ?_⟩
  obtain ⟨r, hr, hzip⟩ := step_command_transactions hinv hin h
  refine ⟨r, hr, fun d hnext hok => ?_, fun hnone => ?_⟩
  · rw [outputs_of_transaction hzip, outputOf_next_ok hnext hok, Option.toList_some]
  · rw [outputs_of_transaction hzip, outputOf_eq_none hnone, Option.toList_none, List.append_nil]

end Sys2Proof.Machine
end

section
/-! PROOFS. Reset: the state it leaves, whatever came before it, and the step after it (R170, R173). -/

namespace Sys2Proof.Machine

/-- Settles O7: the step accepts the reset (R170), and the inputs behind it, now at the front, say what the next step
does: it idles, or it accepts the first command (R173). -/
theorem resetAbandonsAndRestores : Obligations.ResetAbandonsAndRestores := by
  intro s cause inFlight rest hin
  have hidx : (acceptReset rest s).idx.toNat = 624 := congrArg BitVec.toNat (acceptReset_idx rest s)
  have hinputs : (acceptReset rest s).inputs = rest := acceptReset_inputs rest s
  refine ⟨acceptReset rest s, step_of_reset hin, acceptReset_mt rest s, hidx, acceptReset_seeded rest s,
    acceptReset_responses rest s, acceptReset_accepted rest s, hinputs, fun hidle => ?_, fun c later hcommand => ?_⟩
  · exact step_of_idle (hinputs.trans hidle)
  · exact step_of_command (hinputs.trans hcommand)

/-- Settles O8: the reset state's three fields, the cursor's 624 read as a number. -/
theorem resetStateOfBlock : Obligations.ResetStateOfBlock :=
  ⟨reset_mt, congrArg BitVec.toNat reset_idx, reset_seeded⟩

end Sys2Proof.Machine
end

section
/-! PROOFS. Encoding and decoding invert each other (R61, R62, R69): a command word is its two fields, and every pair of
field values belongs to a command. -/

namespace Sys2Proof

/-- A command word is its `OP` above its `DATA`, with no bit besides (R61). -/
theorem commandWord_fields (w : CommandWord) : commandWord (opField w) (dataField w) = w :=
  BitVec.extractLsb'_append_extractLsb'

/-- Encoding lays out the command's own `OP` and `DATA` (R61 to R63). -/
theorem encode_eq_commandWord (i : Instr) : encode i = commandWord i.opcode i.data := by
  cases i <;> rfl

/-- Every `OP` with every `DATA` is a command: the opcode map leaves out no value (R62, R64). -/
theorem exists_instr_of_fields (op : BitVec 2) (data : Word) : ∃ i : Instr, i.opcode = op ∧ i.data = data := by
  match op with
  | 0b00#2 => exact ⟨.next data, rfl, rfl⟩
  | 0b01#2 => exact ⟨.seed data, rfl, rfl⟩
  | 0b10#2 => exact ⟨.seedDefault data, rfl, rfl⟩
  | 0b11#2 => exact ⟨.reserved data, rfl, rfl⟩

/-- A word is decoded without losing a bit: the command it decodes to is laid out in the same two fields (R69). -/
theorem encode_decode (w : CommandWord) : encode (decode w) = w := by
  obtain ⟨i, hop, hdata⟩ := exists_instr_of_fields (opField w) (dataField w)
  rw [decode_of_fields hop.symm hdata.symm, encode_eq_commandWord, hop, hdata, commandWord_fields]

/-- Settles O3. -/
theorem decodeAndEncodeAreInverse : Obligations.DecodeAndEncodeAreInverse := ⟨decode_encode, encode_decode⟩

/-- Settles O2: each word of the table is what its command encodes to. -/
theorem listedWordsDecode : Obligations.ListedWordsDecode :=
  ⟨decode_encode (.next 0), decode_encode (.next 0xFFFFFFFF), decode_encode (.seed 0), decode_encode (.seed 32),
    decode_encode (.seed 4294967295), decode_encode (.seedDefault 0), decode_encode (.seedDefault 0x1571),
    decode_encode (.reserved 0), decode_encode (.reserved 0xDEADBEEF)⟩

end Sys2Proof
end

section
/-! PROOFS. The known-answer test (95_test_vectors.md S1, 90_conflicts.md C2): the first output after SEED 32, a function
of the fill's words 0, 1 and 397, which both fills have in common. -/

namespace Sys2Proof.Machine

/-- The first output of a seed tempers the twist's word 0, which is made of the recurrence's words 0, 1 and 397 under
either fill (R80, R101, R124). -/
theorem nthOutput_one (fillLast : Bool) (seed : Word) :
    nthOutput fillLast seed 1 = temper (twistStep seed (seedWord seed 1) (seedWord seed 397)) := by
  have hword {i : MtIndex} (hi : i.val ≤ 622) : readMt (seedFill fillLast seed) i = seedWord seed i :=
    (readMt_seedFill fillLast seed i).trans (fillWord_of_le (hi.trans (by cases fillLast <;> decide)) seed)
  change temper (readMt (twist (seedFill fillLast seed)) 0) = _
  rw [readMt_twist_of_le_226 _ (by decide), hword (by decide), hword (by decide), hword (by decide)]
  rfl

/-- SEED and one NEXT, in any state, answer `OK` twice, with 0 and with the seed's first output, and leave the cursor at 1
(R81, R121, R124). -/
theorem execAll_seed_next (seed d : Word) (s : State) :
    ∃ t, execAll [.seed seed, .next d] s = .next t ∧ t.idx.toNat = 1 ∧
      t.responses = s.responses ++
        [{ status := .ok, data := 0 }, { status := .ok, data := nthOutput Config.seedFillLast seed 1 }] := by
  obtain ⟨t, ht, hstart⟩ := exec_seeding_afterNexts (i := .seed seed) rfl s
  obtain ⟨u, hu, hafter⟩ := exec_next_afterNexts hstart d
  have hresponses : t.responses = s.responses ++ [{ status := .ok, data := 0 }] := by
    cases (exec_of_seedOf rfl s).symm.trans ht
    rfl
  refine ⟨u, ?_, hafter.idx_toNat, ?_⟩
  · rw [execAll_cons_of_next _ ht, execAll_cons_of_next _ hu, execAll_nil]
  · rw [hafter.responses, hresponses, List.append_assoc]
    rfl

/-- The known answer, from the recurrence's words for seed 32 (95_test_vectors.md S1). The kernel evaluates it: the chain up
to word 397 is too deep for the elaborator. -/
theorem temper_twistStep_seed_32 : temper (twistStep 32 (seedWord 32 1) (seedWord 32 397)) = 3688901335 := by
  decide +kernel

/-- Settles O38: the first output does not depend on the fill, and its value is computed. -/
theorem knownAnswerForSeed32 : Obligations.KnownAnswerForSeed32 := by
  have houtput (fillLast : Bool) : nthOutput fillLast 32 1 = 3688901335 :=
    (nthOutput_one fillLast 32).trans temper_twistStep_seed_32
  exact ⟨fun s d => houtput Config.seedFillLast ▸ execAll_seed_next 32 d s, houtput⟩

end Sys2Proof.Machine
end
